-- ==== Sys2Proof/Word.lean ====
section
/-! DEFINITION. The word types of Project Neko: bytes, 16-bit instruction words, 32-bit registers
and addresses, and the 4-bit register fields of the encodings (00_scope.md R5, R7; 10_state.md R10). -/

namespace Sys2Proof

/-- A byte, W8 of 00_scope.md R7. -/
abbrev Byte := BitVec 8

/-- A 16-bit "WORD" of the manual, W16 of 00_scope.md R7: an instruction word or half a register. -/
abbrev Half := BitVec 16

/-- A 32-bit register, address or "DWORD", W32 of 00_scope.md R7. -/
abbrev Word := BitVec 32

/-- A register index: a 4-bit field of the instruction word; the value i names ri (10_state.md R10). -/
abbrev Reg := BitVec 4

/-- A FLAGS value or a TEST mask: six bits (10_state.md R15, 30_encoding.md R68). -/
abbrev FlagBits := BitVec 6

end Sys2Proof
end

