-- ==== Sys2Proof/Config.lean ====
section
/-! DEFINITION. The parameters of 00_scope.md R6 (`NekoConfig`), which the manual leaves open, and the
free values: constants without a body, of which nothing can be proved. -/

namespace Sys2Proof

/-- WORD_BYTE_ORDER (20_memory.md R36 b): which byte of a 16-bit word is at the lower address. -/
inductive ByteOrder where
  | big
  | little
  deriving DecidableEq, Repr

/-- WORD_WRITE_UPPER (43_memory_access.md R151): bits 31:16 of a register after a 16-bit load. -/
inductive UpperHalf where
  | zero
  | preserve
  deriving DecidableEq, Repr

/-- BRANCH_REG_LEN (30_encoding.md R72): words of a register-mode branch, 1 or 3. -/
inductive RegBranchLen where
  | one
  | three
  deriving DecidableEq, Repr

/-- The number of words `BRANCH_REG_LEN` stands for. -/
def RegBranchLen.words : RegBranchLen → Nat
  | .one => 1
  | .three => 3

/-- DIV_FN and MOD_FN (42_math.md R134, R135): the two candidates the spec names, and `other`, any
function at all (an opaque one). -/
inductive DivReading where
  | unsigned
  | signed
  | other
  deriving DecidableEq, Repr

/-- BSR_FN (40_logic.md R106): the two candidates the spec names, and `other`, any function at all. -/
inductive BsrReading where
  | logical
  | arithmetic
  | other
  deriving DecidableEq, Repr

/-- CMP_SIGNED (46_compare.md R173 a). -/
inductive CmpSign where
  | signed
  | unsigned
  deriving DecidableEq, Repr

/-- ZERO_FLAG_OPERAND (46_compare.md R173 b). -/
inductive ZeroFlagOperand where
  | rA
  | rB
  deriving DecidableEq, Repr

/-- STACK_SLOT_BYTES (45_stack.md R166): 2 or 4. -/
inductive StackSlot where
  | two
  | four
  deriving DecidableEq, Repr

/-- The number of bytes `STACK_SLOT_BYTES` stands for. -/
def StackSlot.bytes : StackSlot → Nat
  | .two => 2
  | .four => 4

/-- What a fetch of a byte that a store has written since reset does: `fault` is U21 (20_memory.md
R49), `latest` the relaxation that 92_eei_decisions.md D21 allows a runner. DESIGN CHOICE (log entry
13): `fault` at reset. Safe. -/
inductive StoredFetch where
  | fault
  | latest
  deriving DecidableEq, Repr

/-- The configuration record of 00_scope.md R6, with `storedFetch` of log entry 13. It is data that no
step changes; a statement about every state is a statement about every configuration. -/
structure NekoConfig where
  wordByteOrder : ByteOrder
  wordWriteUpper : UpperHalf
  branchRegLen : RegBranchLen
  divFn : DivReading
  modFn : DivReading
  bsrFn : BsrReading
  cmpSigned : CmpSign
  zeroFlagOperand : ZeroFlagOperand
  stackSlotBytes : StackSlot
  spReset : Word
  callStackDepth : Nat
  /-- `none` is the setting `unspecified`. -/
  displayFBReset : Option (BitVec 1)
  storedFetch : StoredFetch
  deriving DecidableEq, Repr

/-- The suggested defaults of 92_eei_decisions.md D2, D3, D8, D11 to D17, D25, and the spec's own
treatment of U21. DESIGN CHOICE (log entry 5). Unsafe for statements about `State.reset` only. -/
def NekoConfig.default : NekoConfig where
  wordByteOrder := .big
  wordWriteUpper := .zero
  branchRegLen := .one
  divFn := .signed
  modFn := .signed
  bsrFn := .logical
  cmpSigned := .signed
  zeroFlagOperand := .rA
  stackSlotBytes := .four
  spReset := 0x0007FFFC#32
  callStackDepth := 65536
  displayFBReset := none
  storedFetch := .fault

/-- The free value number `n`: `draw_32()` of 00_scope.md R8, used for U12, U14 and U22. No body:
nothing can be proved of its values (log entry 10). Safe. -/
opaque Config.freeWord : Nat → Word

/-- DIV_FN when it is neither candidate, and the quotient 0x80000000 / 0xFFFFFFFF of the signed
candidate, which is not representable (42_math.md R134; log entry 11). No body. Safe. -/
opaque Config.divFn : Word → Word → Word

/-- MOD_FN when it is neither candidate (42_math.md R135; log entry 11). No body. Safe. -/
opaque Config.modFn : Word → Word → Word

/-- BSR_FN when it is neither candidate (40_logic.md R106; log entry 11). No body. Safe. -/
opaque Config.bsrFn : Word → Word → Word

/-- The free delay before the vertical sync number `n`: how many video steps it adds to the least distance
(92_eei_decisions.md D28; log entry 12). No body. Safe. -/
opaque Config.syncDelay : Nat → Nat

end Sys2Proof
end

