-- ==== Sys2Proof/Syntax.lean ====
section
/-! DEFINITION. The instructions of Project Neko: one constructor for each of the 49 rows of
spec/opcode_table.json (30_encoding.md R76). Register operands are the 4-bit fields, so every value of
every operand is one the encoding admits; the assembler's unchecked operands are in
Sys2Proof/Syntax/Source.lean. -/

namespace Sys2Proof

inductive Instr where
  -- LOGICOP, 40_logic.md R100
  | or (rA rB : Reg)
  | and (rA rB : Reg)
  | xor (rA rB : Reg)
  | not (rA rB : Reg)
  | bsl (rA rB : Reg)
  | bsr (rA rB : Reg)
  | bswap (rA rB : Reg)
  -- BRANCH with the target in a register (mode 0), 41_branch.md R110
  | jmpR (rA : Reg)
  | jmpifR (rA rB : Reg)
  | jmpifnotR (rA rB : Reg)
  | callR (rA : Reg)
  | callifR (rA rB : Reg)
  | callifnotR (rA rB : Reg)
  -- BRANCH with the target in the two words that follow (mode 1), 41_branch.md R110
  | jmpI (address : Word)
  | jmpifI (address : Word) (rB : Reg)
  | jmpifnotI (address : Word) (rB : Reg)
  | callI (address : Word)
  | callifI (address : Word) (rB : Reg)
  | callifnotI (address : Word) (rB : Reg)
  -- MATHOP, 42_math.md R130
  | iadd (rA rB : Reg)
  | isub (rA rB : Reg)
  | imul (rA rB : Reg)
  | idiv (rA rB : Reg)
  | imod (rA rB : Reg)
  | ineg (rA : Reg)
  | inc (rA : Reg)
  | dec (rA : Reg)
  -- MOV, 43_memory_access.md R140; the constant of `ldBImm` is the whole word that follows (R148)
  | stW (rA rB : Reg)
  | ldWMem (rA rB : Reg)
  | cpW (rA rB : Reg)
  | ldWImm (rA : Reg) (constant : Half)
  | ldDImm (rA : Reg) (constant : Word)
  | stB (rA rB : Reg)
  | ldBMem (rA rB : Reg)
  | ldBImm (rA : Reg) (constant : Half)
  | ldDMem (rA rB : Reg)
  -- RET, 44_ret_halt.md R160
  | ret
  | halt
  -- STACK, 45_stack.md R165
  | push (rA : Reg)
  | pop (rA : Reg)
  -- TEST and CMP, 46_compare.md R170
  | test (rA : Reg) (mask : FlagBits)
  | cmp (rA rB : Reg)
  -- IO, 47_io.md R180; `input` is IN, `output` is OUT
  | vsync
  | input (rA : Reg) (port : Half)
  | output (rA : Reg) (port : Half)
  | fsel (rA : Reg)
  | clf (rA : Reg)
  | sprite (rA rB : Reg)
  | spritesheet (rA : Reg)
  deriving DecidableEq, Repr

end Sys2Proof
end

