-- ==== Sys2Proof/Decode.lean ====
section
/-! DEFINITION. Decoding, total on any words and any bytes, and after it the encoder, both from the
format tables of 30_encoding.md R62 to R73. -/

namespace Sys2Proof

/-- Why words are no instruction: the reserved encodings of 30_encoding.md R74, and bytes that stop
before the instruction's last word. -/
inductive DecodeError where
  /-- U1: LOGICOP sub-instruction 111. -/
  | reservedLogic
  /-- U2: BRANCH condition 10. -/
  | reservedBranch
  /-- U3: MATHOP sub-instructions 1000 to 1111. -/
  | reservedMath
  /-- U4: MOV sub-instructions 1001 to 1111. -/
  | reservedMov
  /-- U5: IO sub-instruction 111. -/
  | reservedIo
  /-- U6: base instructions 9 to 15. -/
  | unusedBase
  /-- The bytes end before the instruction does; only `decode` answers it. -/
  | truncated
  deriving DecidableEq, Repr

/-- The field of width `n` whose lowest bit is bit `lo` of the word. -/
def field (w : Half) (lo n : Nat) : BitVec n := w.extractLsb' lo n

/-- R62: `?` rB 14:11, rA 10:7, sub 6:4. -/
def decodeLogic (w : Half) : Except DecodeError Instr :=
  let rB := field w 11 4
  let rA := field w 7 4
  match (field w 4 3).toNat with
  | 0 => .ok (.or rA rB)
  | 1 => .ok (.and rA rB)
  | 2 => .ok (.xor rA rB)
  | 3 => .ok (.not rA rB)
  | 4 => .ok (.bsl rA rB)
  | 5 => .ok (.bsr rA rB)
  | 6 => .ok (.bswap rA rB)
  | _ => .error .reservedLogic

/-- R63: mode 15, call 14, rB 13:10, rA 9:6, cond 5:4; the address of mode 1 is `word1 ++ word2` (R73 c). -/
def decodeBranch (w w1 w2 : Half) : Except DecodeError Instr :=
  let rB := field w 10 4
  let rA := field w 6 4
  let address : Word := w1 ++ w2
  let form := (field w 14 2).toNat
  match (field w 4 2).toNat with
  | 0 =>
    match form with
    | 0 => .ok (.jmpR rA)
    | 1 => .ok (.callR rA)
    | 2 => .ok (.jmpI address)
    | _ => .ok (.callI address)
  | 1 =>
    match form with
    | 0 => .ok (.jmpifR rA rB)
    | 1 => .ok (.callifR rA rB)
    | 2 => .ok (.jmpifI address rB)
    | _ => .ok (.callifI address rB)
  | 2 => .error .reservedBranch
  | _ =>
    match form with
    | 0 => .ok (.jmpifnotR rA rB)
    | 1 => .ok (.callifnotR rA rB)
    | 2 => .ok (.jmpifnotI address rB)
    | _ => .ok (.callifnotI address rB)

/-- R64: rB 15:12, rA 11:8, sub 7:4. -/
def decodeMath (w : Half) : Except DecodeError Instr :=
  let rB := field w 12 4
  let rA := field w 8 4
  match (field w 4 4).toNat with
  | 0 => .ok (.iadd rA rB)
  | 1 => .ok (.isub rA rB)
  | 2 => .ok (.imul rA rB)
  | 3 => .ok (.idiv rA rB)
  | 4 => .ok (.imod rA rB)
  | 5 => .ok (.ineg rA)
  | 6 => .ok (.inc rA)
  | 7 => .ok (.dec rA)
  | _ => .error .reservedMath

/-- R65: rB 15:12, rA 11:8, sub 7:4; the constants are the words that follow (R73 a to c). -/
def decodeMov (w w1 w2 : Half) : Except DecodeError Instr :=
  let rB := field w 12 4
  let rA := field w 8 4
  match (field w 4 4).toNat with
  | 0 => .ok (.stW rA rB)
  | 1 => .ok (.ldWMem rA rB)
  | 2 => .ok (.cpW rA rB)
  | 3 => .ok (.ldWImm rA w1)
  | 4 => .ok (.ldDImm rA (w1 ++ w2))
  | 5 => .ok (.stB rA rB)
  | 6 => .ok (.ldBMem rA rB)
  | 7 => .ok (.ldBImm rA w1)
  | 8 => .ok (.ldDMem rA rB)
  | _ => .error .reservedMov

/-- R66: halt 4, the rest ignored. -/
def decodeRet (w : Half) : Except DecodeError Instr :=
  match (field w 4 1).toNat with
  | 0 => .ok .ret
  | _ => .ok .halt

/-- R67: rA 8:5, pop 4. -/
def decodeStack (w : Half) : Except DecodeError Instr :=
  let rA := field w 5 4
  match (field w 4 1).toNat with
  | 0 => .ok (.push rA)
  | _ => .ok (.pop rA)

/-- R68: rA 13:10, mask 9:4. -/
def decodeTest (w : Half) : Except DecodeError Instr :=
  .ok (.test (field w 10 4) (field w 4 6))

/-- R69: rB 11:8, rA 7:4. -/
def decodeCmp (w : Half) : Except DecodeError Instr :=
  .ok (.cmp (field w 4 4) (field w 8 4))

/-- R70: rB 14:11, rA 10:7, sub 6:4; the port is the word that follows (R73 d). -/
def decodeIo (w w1 : Half) : Except DecodeError Instr :=
  let rB := field w 11 4
  let rA := field w 7 4
  match (field w 4 3).toNat with
  | 0 => .ok .vsync
  | 1 => .ok (.input rA w1)
  | 2 => .ok (.output rA w1)
  | 3 => .ok (.fsel rA)
  | 4 => .ok (.clf rA)
  | 5 => .ok (.sprite rA rB)
  | 6 => .ok (.spritesheet rA)
  | _ => .error .reservedIo

/-- The instruction that the first word `w` and the two words after it hold (R60, R61). The extra words
are used only by the encodings that have them, and whether the words are an instruction depends on `w`
alone. -/
def decodeWords (w w1 w2 : Half) : Except DecodeError Instr :=
  match (field w 0 4).toNat with
  | 0 => decodeLogic w
  | 1 => decodeBranch w w1 w2
  | 2 => decodeMath w
  | 3 => decodeMov w w1 w2
  | 4 => decodeRet w
  | 5 => decodeStack w
  | 6 => decodeTest w
  | 7 => decodeCmp w
  | 8 => decodeIo w w1
  | _ => .error .unusedBase

/-- The length L in words (R72): it depends on the constructor and on `BRANCH_REG_LEN` alone. -/
def Instr.words (n : RegBranchLen) : Instr → Nat
  | .or _ _ | .and _ _ | .xor _ _ | .not _ _ | .bsl _ _ | .bsr _ _ | .bswap _ _ => 1
  | .jmpR _ | .jmpifR _ _ | .jmpifnotR _ _ => n.words
  | .callR _ | .callifR _ _ | .callifnotR _ _ => n.words
  | .jmpI _ | .jmpifI _ _ | .jmpifnotI _ _ | .callI _ | .callifI _ _ | .callifnotI _ _ => 3
  | .iadd _ _ | .isub _ _ | .imul _ _ | .idiv _ _ | .imod _ _ | .ineg _ | .inc _ | .dec _ => 1
  | .stW _ _ | .ldWMem _ _ | .cpW _ _ | .stB _ _ | .ldBMem _ _ | .ldDMem _ _ => 1
  | .ldWImm _ _ | .ldBImm _ _ => 2
  | .ldDImm _ _ => 3
  | .ret | .halt | .push _ | .pop _ | .test _ _ | .cmp _ _ => 1
  | .vsync | .fsel _ | .clf _ | .sprite _ _ | .spritesheet _ => 1
  | .input _ _ | .output _ _ => 2

/-- The byte of a word that stands at the lower (even) address (20_memory.md R36 b). -/
def firstByte : ByteOrder → Half → Byte
  | .big, w => w.extractLsb' 8 8
  | .little, w => w.extractLsb' 0 8

/-- The byte of a word that stands at the higher (odd) address (20_memory.md R36 b). -/
def secondByte : ByteOrder → Half → Byte
  | .big, w => w.extractLsb' 0 8
  | .little, w => w.extractLsb' 8 8

/-- The two bytes of a word in increasing address order. -/
def splitHalf (order : ByteOrder) (w : Half) : List Byte := [firstByte order w, secondByte order w]

/-- The word whose byte at the lower address is `b0` and at the next address `b1` (20_memory.md R39). -/
def joinHalf (order : ByteOrder) (b0 b1 : Byte) : Half :=
  match order with
  | .big => b0 ++ b1
  | .little => b1 ++ b0

/-- The bytes of a list of words, in increasing address order. -/
def layWords (order : ByteOrder) (ws : List Half) : List Byte :=
  ws.flatMap (splitHalf order)

/-- The words that bytes in increasing address order hold; a last odd byte is dropped. -/
def gatherWords (order : ByteOrder) : List Byte → List Half
  | b0 :: b1 :: rest => joinHalf order b0 b1 :: gatherWords order rest
  | _ => []

/-- The instruction at the head of a list of bytes and the bytes after it: the decoder on any bytes.
The order and the length of a register-mode branch are the configuration's. -/
def decode (order : ByteOrder) (n : RegBranchLen) (bytes : List Byte) :
    Except DecodeError (Instr × List Byte) :=
  match gatherWords order bytes with
  | [] => .error .truncated
  | w :: more =>
    match decodeWords w (more.getD 0 0#16) (more.getD 1 0#16) with
    | .error e => .error e
    | .ok i =>
      if i.words n ≤ more.length + 1 then .ok (i, bytes.drop (2 * i.words n)) else .error .truncated

/-- R62 and R70: `?`, rB, rA, sub, base. -/
def packShort (rB rA : Reg) (sub : BitVec 3) (base : BitVec 4) : Half := 0#1 ++ rB ++ rA ++ sub ++ base

/-- R64 and R65: rB, rA, sub, base. -/
def packWide (rB rA : Reg) (sub base : BitVec 4) : Half := rB ++ rA ++ sub ++ base

/-- R63: mode, call, rB, rA, cond, base 0001. -/
def packBranch (mode call : BitVec 1) (rB rA : Reg) (cond : BitVec 2) : Half :=
  mode ++ call ++ rB ++ rA ++ cond ++ 1#4

/-- The words after a register-mode branch: none, or two words whose values are ignored (41_branch.md
R111) and that the encoder writes as zero. -/
def regBranchTail : RegBranchLen → List Half
  | .one => []
  | .three => [0#16, 0#16]

/-- A 32-bit operand as `word1`, `word2` (R77). -/
def operandWords (v : Word) : List Half := [v.extractLsb' 16 16, v.extractLsb' 0 16]

/-- The canonical words of an instruction (R77): ignored bits are written as zero (R71). -/
def encode (n : RegBranchLen) : Instr → List Half
  | .or rA rB => [packShort rB rA 0 0]
  | .and rA rB => [packShort rB rA 1 0]
  | .xor rA rB => [packShort rB rA 2 0]
  | .not rA rB => [packShort rB rA 3 0]
  | .bsl rA rB => [packShort rB rA 4 0]
  | .bsr rA rB => [packShort rB rA 5 0]
  | .bswap rA rB => [packShort rB rA 6 0]
  | .jmpR rA => packBranch 0 0 0 rA 0 :: regBranchTail n
  | .jmpifR rA rB => packBranch 0 0 rB rA 1 :: regBranchTail n
  | .jmpifnotR rA rB => packBranch 0 0 rB rA 3 :: regBranchTail n
  | .callR rA => packBranch 0 1 0 rA 0 :: regBranchTail n
  | .callifR rA rB => packBranch 0 1 rB rA 1 :: regBranchTail n
  | .callifnotR rA rB => packBranch 0 1 rB rA 3 :: regBranchTail n
  | .jmpI address => packBranch 1 0 0 0 0 :: operandWords address
  | .jmpifI address rB => packBranch 1 0 rB 0 1 :: operandWords address
  | .jmpifnotI address rB => packBranch 1 0 rB 0 3 :: operandWords address
  | .callI address => packBranch 1 1 0 0 0 :: operandWords address
  | .callifI address rB => packBranch 1 1 rB 0 1 :: operandWords address
  | .callifnotI address rB => packBranch 1 1 rB 0 3 :: operandWords address
  | .iadd rA rB => [packWide rB rA 0 2]
  | .isub rA rB => [packWide rB rA 1 2]
  | .imul rA rB => [packWide rB rA 2 2]
  | .idiv rA rB => [packWide rB rA 3 2]
  | .imod rA rB => [packWide rB rA 4 2]
  | .ineg rA => [packWide 0 rA 5 2]
  | .inc rA => [packWide 0 rA 6 2]
  | .dec rA => [packWide 0 rA 7 2]
  | .stW rA rB => [packWide rB rA 0 3]
  | .ldWMem rA rB => [packWide rB rA 1 3]
  | .cpW rA rB => [packWide rB rA 2 3]
  | .ldWImm rA c => [packWide 0 rA 3 3, c]
  | .ldDImm rA c => packWide 0 rA 4 3 :: operandWords c
  | .stB rA rB => [packWide rB rA 5 3]
  | .ldBMem rA rB => [packWide rB rA 6 3]
  | .ldBImm rA c => [packWide 0 rA 7 3, c]
  | .ldDMem rA rB => [packWide rB rA 8 3]
  | .ret => [0#11 ++ 0#1 ++ 4#4]
  | .halt => [0#11 ++ 1#1 ++ 4#4]
  | .push rA => [0#7 ++ rA ++ 0#1 ++ 5#4]
  | .pop rA => [0#7 ++ rA ++ 1#1 ++ 5#4]
  | .test rA mask => [0#2 ++ rA ++ mask ++ 6#4]
  | .cmp rA rB => [0#4 ++ rB ++ rA ++ 7#4]
  | .vsync => [packShort 0 0 0 8]
  | .input rA port => [packShort 0 rA 1 8, port]
  | .output rA port => [packShort 0 rA 2 8, port]
  | .fsel rA => [packShort 0 rA 3 8]
  | .clf rA => [packShort 0 rA 4 8]
  | .sprite rA rB => [packShort rB rA 5 8]
  | .spritesheet rA => [packShort 0 rA 6 8]

/-- The bytes of an instruction in memory, in increasing address order. -/
def encodeBytes (order : ByteOrder) (n : RegBranchLen) (i : Instr) : List Byte :=
  layWords order (encode n i)

/-- The three words of an instruction whose bits are `w`, numbered as spec/opcode_table.json numbers
them: bit 0 is the least significant bit of the first word, and every bit from `nbits` up is 0. -/
def tableWords (nbits w : Nat) : List Half :=
  let v := w % 2 ^ nbits
  [BitVec.ofNat 16 v, BitVec.ofNat 16 (v / 2 ^ 16), BitVec.ofNat 16 (v / 2 ^ 32)]

/-- The instruction the decoder reads from the bits `w` of an opcode-table row, laid out as the
hardware with the default configuration stores them; none where the decoder refuses. -/
def decodeTableWord (nbits w : Nat) : Option Instr :=
  let order := NekoConfig.default.wordByteOrder
  match decode order NekoConfig.default.branchRegLen (layWords order (tableWords nbits w)) with
  | .ok (i, _) => some i
  | .error _ => none

end Sys2Proof
end

