-- ==== Sys2Proof/Machine/State.lean ====
section
/-! DEFINITION. The state of Project Neko as plain data, everything 10_state.md and 20_memory.md give the
machine; the reasons a step can stop; and the state right after reset (10_state.md R25). -/

namespace Sys2Proof.Machine

/-- Memory bytes by address, in one canonical form (`Memory.wf`). -/
abbrev Memory := List Host.Cell

/-- The canonical form of a memory of `size` bytes whose unlisted addresses read as `unlisted` (`none`:
they hold no value): addresses strictly rising, inside the memory, and no entry equal to what an
unlisted address reads as. -/
abbrev Memory.wf (size : Nat) (unlisted : Option Byte) (m : Memory) : Prop :=
  m.Pairwise (fun c d => c.1 < d.1) ∧ ∀ c ∈ m, c.1 < size ∧ some c.2 ≠ unlisted

/-- SRAM is 512 Kbytes (20_memory.md R31, R32). -/
abbrev sramSize : Nat := 0x80000

/-- A frame buffer is 256 x 192 bytes (20_memory.md R34). -/
abbrev frameSize : Nat := 0xC000

/-- What an SRAM address that is not listed reads as: no value (10_state.md R25, U19; log entry 7). Safe. -/
abbrev sramUnlisted : Option Byte := none

/-- One of the two copies of VRAM (10_state.md R21). -/
inductive FrameBuffer where
  /-- Written by the CPU only: `fill` is what every unlisted offset holds (the value of the last CLF, or
  `none`, no value, before one), `cells` the bytes stored since. -/
  | cpu (fill : Option Byte) (cells : Memory)
  /-- A SPRITE has run: no rule gives the contents from then on (47_io.md R191, U23; log entry 9). Safe. -/
  | drawn
  deriving DecidableEq, Repr

/-- The canonical form of a frame buffer. -/
abbrev FrameBuffer.wf : FrameBuffer → Prop
  | .cpu fill cells => Memory.wf frameSize fill cells
  | .drawn => True

/-- The externally visible events (00_scope.md R8, `emit`). -/
inductive Event where
  /-- IN read `value` from `port` (47_io.md R182). -/
  | input (port : Half) (value : Word)
  /-- OUT wrote `value` to `port` (47_io.md R183). -/
  | output (port : Half) (value : Word)
  /-- FSEL selected the frame buffer to display (47_io.md R186). -/
  | frameSelect (buffer : BitVec 1)
  /-- SPRITE started a draw: table address, count, sheet address (47_io.md R188). -/
  | spriteKick (table count sheet : Word)
  deriving DecidableEq, Repr

/-- The model's outcomes `Unspecified(U<n>)` whose treatment is fault (60_exceptions.md R201). None is
an event of the hardware: each marks the point past which the spec says nothing. All are SAFE: the
model stops where the chip would go on in some way the spec does not give. -/
inductive Fault where
  /-- U1, raised by fetch: LOGICOP sub-instruction 111 (40_logic.md R108). Safe. -/
  | reservedLogic
  /-- U2, raised by fetch: BRANCH condition 10 (41_branch.md R121). Safe. -/
  | reservedBranch
  /-- U3, raised by fetch: MATHOP sub-instructions 1000 to 1111 (42_math.md R139). Safe. -/
  | reservedMath
  /-- U4, raised by fetch: MOV sub-instructions 1001 to 1111 (43_memory_access.md R150). Safe. -/
  | reservedMov
  /-- U5, raised by fetch: IO sub-instruction 111 (47_io.md R192). Safe. -/
  | reservedIo
  /-- U6, raised by fetch: base instructions 9 to 15 (30_encoding.md R74). Safe. -/
  | unusedBase
  /-- U7, raised by st.w, ld.w [rB], ld.d [rB], push, pop: word or dword access at an odd address
  (20_memory.md R42). Safe. -/
  | misaligned
  /-- U8, raised by fetch: odd address, or a word not wholly inside SRAM (20_memory.md R41). Safe. -/
  | badFetch
  /-- U9, raised by every memory access: a byte outside the address map (20_memory.md R33). Safe. -/
  | outsideMap
  /-- U10, raised by st.w and push: word or dword store to VRAM or the device bytes (20_memory.md R34,
  R35). Safe. -/
  | wideVideoStore
  /-- U11, raised by ld.w [rB], ld.b [rB], ld.d [rB], pop: load from VRAM or the device bytes
  (20_memory.md R34, R35; log entry 14). Safe. -/
  | videoLoad
  /-- U16, raised by the -if and -ifnot branches: condition register neither 0 nor 1 (41_branch.md R114).
  Safe. -/
  | conditionNotBool
  /-- U17, raised by the call forms: the call stack is full (10_state.md R18). Safe. -/
  | callStackFull
  /-- U17, raised by ret: the call stack is empty (10_state.md R18). Safe. -/
  | callStackEmpty
  /-- U19, raised by fetch, the memory loads and pop: an SRAM byte that nothing has written
  (10_state.md R25; log entry 7). Safe. -/
  | noValue
  /-- U20, raised by st.b: a non-zero byte to VBSENABLE (60_exceptions.md R204; log entry 16). Safe. -/
  | vblankService
  /-- U21, raised by fetch: a byte that a store has written since reset, when the configuration's
  `storedFetch` is `fault` (20_memory.md R49; log entry 13). Safe. -/
  | storedCode
  deriving DecidableEq, Repr

/-- Why an instruction has no meaning. -/
inductive Refusal where
  /-- Raised by an arm of `exec` whose instruction is not modelled; no arm does. Safe. -/
  | notModelled (mnemonic : String)
  deriving DecidableEq, Repr

/-- The state. INVENTORY.md lists each field with the rule that names it and its reset value. -/
structure State where
  /-- NekoConfig (00_scope.md R6): data that no step changes (log entry 5). -/
  cfg : NekoConfig
  /-- r0..r15 (10_state.md R10). -/
  regs : Vector Word 16
  /-- IP (10_state.md R13). -/
  pc : Word
  /-- SP (10_state.md R16). -/
  sp : Word
  /-- FLAGS: bit 0 EQUAL, 1 GREATER, 2 LESS, 3 NOTZERO, 4 NOTEQUAL, 5 ZERO (10_state.md R15). -/
  flags : FlagBits
  /-- CS, the newest entry last (10_state.md R17, R18). -/
  callStack : List Word
  /-- The SRAM bytes that hold a value (20_memory.md R32). -/
  sram : Memory
  /-- The addresses of the SRAM bytes a store has written since reset, rising (20_memory.md R49). -/
  stored : List Nat
  /-- FB[0] (10_state.md R21). -/
  fb0 : FrameBuffer
  /-- FB[1] (10_state.md R21). -/
  fb1 : FrameBuffer
  /-- DISPLAYFB (10_state.md R21). -/
  displayFB : BitVec 1
  /-- BORDER COLOR, the byte 0x8000C000 (20_memory.md R35). -/
  borderColor : Byte
  /-- VBSENABLE, the byte 0x8000C001 (20_memory.md R35). -/
  vbsEnable : Byte
  /-- VBLANKSERVICE, the bytes 0x8000C004 to 0x8000C007 (20_memory.md R35). -/
  vblankService : Vector Byte 4
  /-- SPRITESHEETPTR (10_state.md R22). -/
  spriteSheetPtr : Word
  /-- SPRITETABLEPTR (10_state.md R22). -/
  spriteTablePtr : Word
  /-- SPRITECOUNT (10_state.md R22). -/
  spriteCount : Word
  /-- HALTED (10_state.md R23). -/
  halted : Bool
  /-- The CPU is holding at a VSYNC (10_state.md R24, 60_exceptions.md R214 b). -/
  vsyncWait : Bool
  /-- The model's own: how many steps the video output has taken (60_exceptions.md R212 a; log entry 12). -/
  videoTime : Nat
  /-- The event history, oldest first (00_scope.md R8, 70_reset_and_hazards.md R226). -/
  events : List Event
  /-- The model's own: how many free values have been drawn (log entry 10). -/
  draws : Nat
  deriving DecidableEq, Repr

/-- The state after reset with a given configuration and no image loaded (10_state.md R25,
70_reset_and_hazards.md R221, R222). The spec states IP, SP, CS, DISPLAYFB (where the parameter is 0 or
1), HALTED and VBSENABLE; the zeros of the other registers are DESIGN CHOICE (log entries 1 to 4, 6),
unsafe. -/
def State.resetWith (cfg : NekoConfig) : State where
  cfg := cfg
  regs := Vector.replicate 16 0#32
  pc := 0#32
  sp := cfg.spReset
  flags := 0#6
  callStack := []
  sram := []
  stored := []
  fb0 := .cpu none []
  fb1 := .cpu none []
  displayFB := cfg.displayFBReset.getD 0#1
  borderColor := 0#8
  vbsEnable := 0#8
  vblankService := Vector.replicate 4 0#8
  spriteSheetPtr := 0#32
  spriteTablePtr := 0#32
  spriteCount := 0#32
  halted := false
  vsyncWait := false
  videoTime := 0
  events := []
  draws := 0

/-- The machine right after reset, with the default configuration and nothing loaded (log entries 5
and 18). -/
def State.reset : State := State.resetWith NekoConfig.default

end Sys2Proof.Machine
end

