-- ==== Sys2Proof/Machine/Ops.lean ====
section
/-! DEFINITION. The named operations over registers, memory, the call stack, the frame buffers and the
event history (00_scope.md R8, 20_memory.md R37 to R43, 10_state.md R18). The hardware has no exception
entry and no return from one (60_exceptions.md R200, R206, R207), so there is none here: what the spec
leaves without behaviour is a `Fault`. -/

namespace Sys2Proof.Machine

/-- What a meaning answers. -/
abbrev Result := Host.Outcome State Fault Refusal

/-- Go on with the value, or stop with the fault. -/
def andThen {α : Type} : Except Fault α → (α → Result) → Result
  | .error f, _ => .fault f
  | .ok v, k => k v

/-! ### Memory as data -/

/-- The byte listed at address `a`. -/
def Memory.read : Memory → Nat → Option Byte
  | [], _ => none
  | (k, b) :: rest, a => if k = a then some b else Memory.read rest a

/-- The memory with the entry of address `a` removed. -/
def Memory.erase (a : Nat) : Memory → Memory
  | [] => []
  | (k, b) :: rest => if k = a then rest else (k, b) :: Memory.erase a rest

/-- The memory with `b` listed at address `a`, addresses still rising. -/
def Memory.insert (a : Nat) (b : Byte) : Memory → Memory
  | [] => [(a, b)]
  | (k, c) :: rest =>
    if a < k then (a, b) :: (k, c) :: rest
    else if a = k then (a, b) :: rest
    else (k, c) :: Memory.insert a b rest

/-- A write that keeps the canonical form: writing what an unlisted address reads as removes the entry. -/
def Memory.put (unlisted : Option Byte) (m : Memory) (a : Nat) (b : Byte) : Memory :=
  if some b = unlisted then Memory.erase a m else Memory.insert a b m

/-- A rising list of addresses with `a` in it. -/
def insertAddress (a : Nat) : List Nat → List Nat
  | [] => [a]
  | k :: rest =>
    if a < k then a :: k :: rest else if a = k then k :: rest else k :: insertAddress a rest

/-! ### Registers, pc, sp, flags -/

/-- `x[i]` (00_scope.md R8): no register is hardwired (10_state.md R11). -/
def State.reg (s : State) (i : Reg) : Word := s.regs[i.toNat]'i.isLt

/-- `x[i] <- v`, all 32 bits (00_scope.md R8). -/
def State.setReg (s : State) (i : Reg) (v : Word) : State := { s with regs := s.regs.set i.toNat v i.isLt }

/-- `x[i][7:0] <- b`; bits 31:8 keep their value (00_scope.md R8). -/
def State.writeLow8 (s : State) (i : Reg) (b : Byte) : State :=
  s.setReg i ((s.reg i).extractLsb' 8 24 ++ b)

/-- `WriteLow16` (43_memory_access.md R151). -/
def State.writeLow16 (s : State) (i : Reg) (v : Half) : State :=
  match s.cfg.wordWriteUpper with
  | .zero => s.setReg i (v.setWidth 32)
  | .preserve => s.setReg i ((s.reg i).extractLsb' 16 16 ++ v)

/-- `pc <- v`. -/
def State.setPc (s : State) (v : Word) : State := { s with pc := v }

/-- `pc + 2 * n`, modulo 2^32: the address `n` words after the instruction's first (10_state.md R14). -/
def State.nextPc (s : State) (n : Nat) : Word := s.pc + BitVec.ofNat 32 (2 * n)

/-- Sequential advance over an instruction of `n` words (10_state.md R14). -/
def State.advance (s : State) (n : Nat) : State := s.setPc (s.nextPc n)

/-- `sp <- v` (10_state.md R16). -/
def State.setSp (s : State) (v : Word) : State := { s with sp := v }

/-- `FLAGS <- f`, all six bits (10_state.md R15). -/
def State.setFlags (s : State) (f : FlagBits) : State := { s with flags := f }

/-- `HALTED <- 1` (10_state.md R23). -/
def State.setHalted (s : State) : State := { s with halted := true }

/-! ### Free values and events -/

/-- The free value `draw_32()` that the state supplies next (00_scope.md R8; log entry 10). -/
def State.freeWord (s : State) : Word := Config.freeWord s.draws

/-- The state after a free value was used. -/
def State.draw (s : State) : State := { s with draws := s.draws + 1 }

/-- `x[i] <- v`, or `x[i] <- draw_32()` where the spec gives the result no value. -/
def State.setRegOrFree (s : State) (i : Reg) : Option Word → State
  | some v => s.setReg i v
  | none => s.draw.setReg i s.freeWord

/-- `emit e`: append to the event history (00_scope.md R8). -/
def State.emit (s : State) (e : Event) : State := { s with events := s.events ++ [e] }

/-! ### The call stack -/

/-- The call stack replaced. -/
def State.setCallStack (s : State) (cs : List Word) : State := { s with callStack := cs }

/-- `CallPush(v)` (10_state.md R18): U17 when the stack holds `CALLSTACK_DEPTH` entries. -/
def State.callPush (s : State) (v : Word) : Except Fault State :=
  if s.callStack.length < s.cfg.callStackDepth then .ok (s.setCallStack (s.callStack ++ [v]))
  else .error .callStackFull

/-- `CallPop()` (10_state.md R18): the newest entry and the state without it; U17 when there is none. -/
def State.callPop (s : State) : Except Fault (Word × State) :=
  match s.callStack.getLast? with
  | some v => .ok (v, s.setCallStack s.callStack.dropLast)
  | none => .error .callStackEmpty

/-! ### The address map -/

/-- The regions of 20_memory.md R31. -/
inductive Region where
  | sram
  | vram
  | dev
  | absent
  deriving DecidableEq, Repr

/-- `Region(a)` (20_memory.md R31); `absent` is the table's `NONE`. -/
def region (a : Word) : Region :=
  if a.toNat < 0x80000 then .sram
  else if a.toNat < 0x80000000 then .absent
  else if a.toNat < 0x8000C000 then .vram
  else if a.toNat < 0x8000D000 then .dev
  else .absent

/-- `Bytes(a, n)`: a, a+1, ..., a+n-1 modulo 2^32 (20_memory.md R37). -/
def span (a : Word) (n : Nat) : List Word := (List.range n).map (fun k => a + BitVec.ofNat 32 k)

/-- Bit 0 of an address. -/
def isOdd (a : Word) : Bool := a.getLsbD 0

/-- Why a load of `n` bytes at `a` is not admitted (20_memory.md R37), in the order of 60_exceptions.md
R205: U9, then U11, then U7. A load of any width that meets VRAM or a device byte is U11 (log entry 14). -/
def loadFault (a : Word) (n : Nat) : Option Fault :=
  if (span a n).any (fun b => region b == .absent) then some .outsideMap
  else if (span a n).any (fun b => region b != .sram) then some .videoLoad
  else if n != 1 && isOdd a then some .misaligned
  else none

/-- Why a store of `n` bytes at `a` is not admitted (20_memory.md R37), in the order of 60_exceptions.md
R205: U9, then U10, then U7. The value stored to VBSENABLE is checked by `storeDevice` (U20). -/
def storeFault (a : Word) (n : Nat) : Option Fault :=
  if (span a n).any (fun b => region b == .absent) then some .outsideMap
  else if n != 1 && (span a n).any (fun b => region b != .sram) then some .wideVideoStore
  else if n != 1 && isOdd a then some .misaligned
  else none

/-! ### Loads -/

/-- The SRAM byte at `a`, if it holds a value (20_memory.md R38). -/
def State.sramByte (s : State) (a : Word) : Option Byte := Memory.read s.sram a.toNat

/-- The SRAM word at `a`, if both bytes hold a value (20_memory.md R39). -/
def State.sramHalf (s : State) (a : Word) : Option Half :=
  match s.sramByte a, s.sramByte (a + 1#32) with
  | some b0, some b1 => some (joinHalf s.cfg.wordByteOrder b0 b1)
  | _, _ => none

/-- The SRAM dword at `a`: the word at the lower address is the more significant (20_memory.md R36 a, R39). -/
def State.sramWord (s : State) (a : Word) : Option Word :=
  match s.sramHalf a, s.sramHalf (a + 2#32) with
  | some hi, some lo => some (hi ++ lo)
  | _, _ => none

/-- A checked read: the access's fault, or U19 for bytes without a value (60_exceptions.md R205). -/
def checkedRead {α : Type} (f : Option Fault) (v : Option α) : Except Fault α :=
  match f, v with
  | some f, _ => .error f
  | none, some v => .ok v
  | none, none => .error .noValue

/-- `MemRead(a, 1)` (20_memory.md R38). -/
def State.load8 (s : State) (a : Word) : Except Fault Byte := checkedRead (loadFault a 1) (s.sramByte a)

/-- `MemRead(a, 2)` (20_memory.md R39). -/
def State.load16 (s : State) (a : Word) : Except Fault Half := checkedRead (loadFault a 2) (s.sramHalf a)

/-- `MemRead(a, 4)` (20_memory.md R39). -/
def State.load32 (s : State) (a : Word) : Except Fault Word := checkedRead (loadFault a 4) (s.sramWord a)

/-! ### Frame buffers and device bytes -/

/-- The byte at offset `o`, if the buffer holds a value there. -/
def FrameBuffer.read : FrameBuffer → Nat → Option Byte
  | .cpu fill cells, o => (Memory.read cells o).or fill
  | .drawn, _ => none

/-- A CPU store to offset `o`; after a SPRITE the contents stay without a defined value (47_io.md R191). -/
def FrameBuffer.write (o : Nat) (b : Byte) : FrameBuffer → FrameBuffer
  | .cpu fill cells => .cpu fill (Memory.put fill cells o b)
  | .drawn => .drawn

/-- Every offset set to `b` (47_io.md R187); after a SPRITE the contents stay without a defined value. -/
def FrameBuffer.clear (b : Byte) : FrameBuffer → FrameBuffer
  | .cpu _ _ => .cpu (some b) []
  | .drawn => .drawn

/-- FB[k]. -/
def State.fb (s : State) (k : BitVec 1) : FrameBuffer := if k = 0#1 then s.fb0 else s.fb1

/-- FB[k] replaced. -/
def State.setFb (s : State) (k : BitVec 1) (f : FrameBuffer) : State :=
  { s with fb0 := if k = 0#1 then f else s.fb0, fb1 := if k = 0#1 then s.fb1 else f }

/-- `1 - DISPLAYFB`: the frame buffer that CPU writes reach (20_memory.md R34, 47_io.md R185). -/
def State.writeTarget (s : State) : BitVec 1 := ~~~ s.displayFB

/-- A store of `b` at offset `o` of the write-target frame buffer (20_memory.md R34). -/
def State.storePixel (s : State) (o : Nat) (b : Byte) : State :=
  s.setFb s.writeTarget ((s.fb s.writeTarget).write o b)

/-- BORDER COLOR replaced (20_memory.md R35). -/
def State.setBorder (s : State) (b : Byte) : State := { s with borderColor := b }

/-- VBSENABLE replaced (20_memory.md R35). -/
def State.setVbsEnable (s : State) (b : Byte) : State := { s with vbsEnable := b }

/-- One byte of VBLANKSERVICE replaced (20_memory.md R35). -/
def State.setService (s : State) (k : Fin 4) (b : Byte) : State :=
  { s with vblankService := s.vblankService.set k b }

/-- A byte store at offset `o` of the device bytes (20_memory.md R35): a non-zero VBSENABLE is U20, the
UNUSED bytes take a store without effect. -/
def State.storeDevice (s : State) (o : Nat) (b : Byte) : Except Fault State :=
  match o with
  | 0 => .ok (s.setBorder b)
  | 1 => if b = 0#8 then .ok (s.setVbsEnable b) else .error .vblankService
  | 4 => .ok (s.setService 0 b)
  | 5 => .ok (s.setService 1 b)
  | 6 => .ok (s.setService 2 b)
  | 7 => .ok (s.setService 3 b)
  | _ => .ok s

/-- The device byte at offset `o`, where one is held (20_memory.md R35). -/
def State.deviceByte (s : State) (o : Nat) : Option Byte :=
  match o with
  | 0 => some s.borderColor
  | 1 => some s.vbsEnable
  | 4 => some s.vblankService[0]
  | 5 => some s.vblankService[1]
  | 6 => some s.vblankService[2]
  | 7 => some s.vblankService[3]
  | _ => none

/-! ### Stores -/

/-- An SRAM byte set by a store, which is remembered (20_memory.md R40, R49). -/
def State.pokeByte (s : State) (a : Word) (b : Byte) : State :=
  { s with sram := Memory.put sramUnlisted s.sram a.toNat b, stored := insertAddress a.toNat s.stored }

/-- An SRAM word set by a store (20_memory.md R40). -/
def State.pokeHalf (s : State) (a : Word) (v : Half) : State :=
  (s.pokeByte a (firstByte s.cfg.wordByteOrder v)).pokeByte (a + 1#32)
    (secondByte s.cfg.wordByteOrder v)

/-- An SRAM dword set by a store, the more significant word first (20_memory.md R40). -/
def State.pokeWord (s : State) (a : Word) (v : Word) : State :=
  (s.pokeHalf a (v.extractLsb' 16 16)).pokeHalf (a + 2#32) (v.extractLsb' 0 16)

/-- `MemWrite(a, 1, v)` (20_memory.md R40). -/
def State.store8 (s : State) (a : Word) (b : Byte) : Except Fault State :=
  match region a with
  | .sram => .ok (s.pokeByte a b)
  | .vram => .ok (s.storePixel (a.toNat - 0x80000000) b)
  | .dev => s.storeDevice (a.toNat - 0x8000C000) b
  | .absent => .error .outsideMap

/-- `MemWrite(a, 2, v)` (20_memory.md R40). -/
def State.store16 (s : State) (a : Word) (v : Half) : Except Fault State :=
  match storeFault a 2 with
  | some f => .error f
  | none => .ok (s.pokeHalf a v)

/-- `MemWrite(a, 4, v)` (20_memory.md R40). -/
def State.store32 (s : State) (a : Word) (v : Word) : Except Fault State :=
  match storeFault a 4 with
  | some f => .error f
  | none => .ok (s.pokeWord a v)

/-! ### One byte of storage, wherever it is -/

/-- A byte of the machine's storage: of SRAM, of a frame buffer, or a device byte. -/
inductive Place where
  | sram (a : Nat)
  | frame (k : BitVec 1) (o : Nat)
  | device (o : Nat)
  deriving DecidableEq, Repr

/-- The value a place holds, if it holds one. -/
def State.byteAt (s : State) : Place → Option Byte
  | .sram a => Memory.read s.sram a
  | .frame k o => (s.fb k).read o
  | .device o => s.deviceByte o

/-- The place a CPU store to address `a` reaches (20_memory.md R31, R34, R35). -/
def State.placeOf (s : State) (a : Word) : Option Place :=
  match region a with
  | .sram => some (.sram a.toNat)
  | .vram => some (.frame s.writeTarget (a.toNat - 0x80000000))
  | .dev => some (.device (a.toNat - 0x8000C000))
  | .absent => none

/-- The places a store of `n` bytes at `a` reaches. -/
def State.placesOf (s : State) (a : Word) (n : Nat) : List Place := (span a n).filterMap s.placeOf

/-! ### Reset and the ROM image -/

/-- A memory with the bytes of an image put into it, a later byte at an address in place of an earlier one (log
entry 25).
DESIGN CHOICE (log entry 26): bytes at addresses outside SRAM are left out, of which the spec says nothing. -/
def Memory.load (m : Memory) (image : List Host.Cell) : Memory :=
  image.foldl (fun m c => if c.1 < sramSize then Memory.put sramUnlisted m c.1 c.2 else m) m

/-- The host puts an image into SRAM (70_reset_and_hazards.md R224). -/
def State.loadImage (s : State) (image : List Host.Cell) : State :=
  { s with sram := Memory.load s.sram image }

/-- A cold start with an image loaded (70_reset_and_hazards.md R223, R224; 92_eei_decisions.md D36). -/
def State.coldStart (cfg : NekoConfig) (image : List Host.Cell) : State :=
  (State.resetWith cfg).loadImage image

/-- The reset signal, an input from outside the CPU (70_reset_and_hazards.md R220): a cold start with the
image the host has loaded. Nothing else ends the halted state. -/
def State.resetSignal (s : State) (image : List Host.Cell) : State := State.coldStart s.cfg image

end Sys2Proof.Machine
end

