-- ==== Sys2Proof/Machine/Operands.lean ====
section
/-! DEFINITION. The operand forms and the value computations of the instructions: branch targets and
conditions (41_branch.md R112, R114), shifts and BSWAP (40_logic.md), division and modulo (42_math.md).
A result `none` is a value the spec leaves free (U12, U14). -/

namespace Sys2Proof.Machine

/-- `zext_32(t[18:0])` (30_encoding.md R73 f, 41_branch.md R112). -/
def branchTarget (t : Word) : Word := (t.extractLsb' 0 19).setWidth 32

/-- Whether a conditional branch is taken (41_branch.md R114): `sense` is true for the -IF forms and false
for the -IFNOT forms; a condition register that is neither 0 nor 1 is U16. -/
def branchTaken (c : Word) (sense : Bool) : Except Fault Bool :=
  if c = 1#32 then .ok sense else if c = 0#32 then .ok (!sense) else .error .conditionNotBool

/-- BSL (40_logic.md R105). -/
def shiftLeft (a n : Word) : Option Word := if n.toNat < 32 then some (a <<< n.toNat) else none

/-- BSR_FN (40_logic.md R106). -/
def bsrFill (f : BsrReading) (a n : Word) : Word :=
  match f with
  | .logical => a >>> n.toNat
  | .arithmetic => a.sshiftRight n.toNat
  | .other => Config.bsrFn a n

/-- BSR (40_logic.md R106). -/
def shiftRight (f : BsrReading) (a n : Word) : Option Word :=
  if 32 ≤ n.toNat then none
  else if n = 0#32 || !a.msb then some (a >>> n.toNat)
  else some (bsrFill f a n)

/-- BSWAP (40_logic.md R107). -/
def byteSwap (v : Word) : Word := (v.extractLsb' 0 8 ++ v.extractLsb' 8 8 : Half).setWidth 32

/-- DIV_FN (42_math.md R134). The signed quotient 0x80000000 / 0xFFFFFFFF is not representable and stays
open (log entry 11). -/
def divReading (f : DivReading) (a b : Word) : Word :=
  match f with
  | .unsigned => a.udiv b
  | .signed => if a = 0x80000000#32 ∧ b = 0xFFFFFFFF#32 then Config.divFn a b else a.sdiv b
  | .other => Config.divFn a b

/-- MOD_FN (42_math.md R135). -/
def modReading (f : DivReading) (a b : Word) : Word :=
  match f with
  | .unsigned => a.umod b
  | .signed => a.srem b
  | .other => Config.modFn a b

/-- IDIV (42_math.md R134). -/
def quotient (f : DivReading) (a b : Word) : Option Word :=
  if b = 0#32 then none
  else if a.toNat < 2 ^ 31 ∧ b.toNat < 2 ^ 31 then some (BitVec.ofNat 32 (a.toNat / b.toNat))
  else some (divReading f a b)

/-- IMOD (42_math.md R135). -/
def remainder (f : DivReading) (a b : Word) : Option Word :=
  if b = 0#32 then none
  else if a.toNat < 2 ^ 31 ∧ b.toNat < 2 ^ 31 then
    some (BitVec.ofNat 32 (a.toNat - b.toNat * (a.toNat / b.toNat)))
  else some (modReading f a b)

end Sys2Proof.Machine
end

