-- ==== Sys2Proof/Machine/Branch.lean ====
section
/-! DEFINITION. The BRANCH group (41_branch.md R110 to R120), each instruction in register mode (length
`BRANCH_REG_LEN`) and in immediate mode (three words). No delay slots. -/

namespace Sys2Proof.Machine

/-- The address after a register-mode branch (R111). -/
def State.nextReg (s : State) : Word := s.nextPc s.cfg.branchRegLen.words

/-- The address after an immediate-mode branch (R111). -/
def State.nextImm (s : State) : Word := s.nextPc 3

/-- `pc <- target` of R112. -/
def State.jumpTo (s : State) (t : Word) : Result := .next (s.setPc (branchTarget t))

/-- `CallPush(next); pc <- target` (R113). -/
def State.callTo (s : State) (t next : Word) : Result := andThen (s.callPush next) (·.jumpTo t)

/-- JMPIF and JMPIFNOT: jump if the condition holds, else go on at `next` (R114, R116, R117). -/
def State.jumpIf (s : State) (sense : Bool) (c t next : Word) : Result :=
  andThen (branchTaken c sense) fun taken => if taken then s.jumpTo t else .next (s.setPc next)

/-- CALLIF and CALLIFNOT: call if the condition holds, else go on at `next`, pushing nothing (R113, R114,
R119, R120). -/
def State.callIf (s : State) (sense : Bool) (c t next : Word) : Result :=
  andThen (branchTaken c sense) fun taken => if taken then s.callTo t next else .next (s.setPc next)

/-- JMP rA (R115). -/
def execJmpR (rA : Reg) (s : State) : Result := s.jumpTo (s.reg rA)

/-- JMPIF rA, rB (R116). -/
def execJmpifR (rA rB : Reg) (s : State) : Result := s.jumpIf true (s.reg rB) (s.reg rA) s.nextReg

/-- JMPIFNOT rA, rB (R117). -/
def execJmpifnotR (rA rB : Reg) (s : State) : Result := s.jumpIf false (s.reg rB) (s.reg rA) s.nextReg

/-- CALL rA (R118). -/
def execCallR (rA : Reg) (s : State) : Result := s.callTo (s.reg rA) s.nextReg

/-- CALLIF rA, rB (R119). -/
def execCallifR (rA rB : Reg) (s : State) : Result := s.callIf true (s.reg rB) (s.reg rA) s.nextReg

/-- CALLIFNOT rA, rB (R120). -/
def execCallifnotR (rA rB : Reg) (s : State) : Result := s.callIf false (s.reg rB) (s.reg rA) s.nextReg

/-- JMP address (R115). -/
def execJmpI (address : Word) (s : State) : Result := s.jumpTo address

/-- JMPIF address, rB (R116). -/
def execJmpifI (address : Word) (rB : Reg) (s : State) : Result := s.jumpIf true (s.reg rB) address s.nextImm

/-- JMPIFNOT address, rB (R117). -/
def execJmpifnotI (address : Word) (rB : Reg) (s : State) : Result :=
  s.jumpIf false (s.reg rB) address s.nextImm

/-- CALL address (R118). -/
def execCallI (address : Word) (s : State) : Result := s.callTo address s.nextImm

/-- CALLIF address, rB (R119). -/
def execCallifI (address : Word) (rB : Reg) (s : State) : Result := s.callIf true (s.reg rB) address s.nextImm

/-- CALLIFNOT address, rB (R120). -/
def execCallifnotI (address : Word) (rB : Reg) (s : State) : Result :=
  s.callIf false (s.reg rB) address s.nextImm

end Sys2Proof.Machine
end

