-- ==== Sys2Proof/Machine/Flags.lean ====
section
/-! DEFINITION. Every computation over FLAGS: CMP writes all six bits and TEST reads them (46_compare.md
R171 to R174). No other instruction touches them (10_state.md R15). -/

namespace Sys2Proof.Machine

/-- `Less(a, b)` (46_compare.md R173 a). -/
def less (sign : CmpSign) (a b : Word) : Bool :=
  if a.msb = b.msb then decide (a.toNat < b.toNat)
  else match sign with
    | .unsigned => b.msb
    | .signed => a.msb

/-- `ZeroOperand(a, b)` (46_compare.md R173 b). -/
def zeroOperand (z : ZeroFlagOperand) (a b : Word) : Word :=
  if decide (a = 0#32) = decide (b = 0#32) then a
  else match z with
    | .rA => a
    | .rB => b

/-- The six bits in the order ZERO:NOTEQUAL:NOTZERO:LESS:GREATER:EQUAL, EQUAL being bit 0 (10_state.md R15). -/
def packFlags (zero notEqual notZero less greater equal : Bool) : FlagBits :=
  BitVec.ofBool zero ++ BitVec.ofBool notEqual ++ BitVec.ofBool notZero ++ BitVec.ofBool less ++
    BitVec.ofBool greater ++ BitVec.ofBool equal

/-- The FLAGS value that CMP writes (46_compare.md R172). -/
def cmpFlags (cfg : NekoConfig) (a b : Word) : FlagBits :=
  let z := zeroOperand cfg.zeroFlagOperand a b
  packFlags (z = 0#32) (a ≠ b) (z ≠ 0#32) (less cfg.cmpSigned a b) (less cfg.cmpSigned b a) (a = b)

/-- The value that TEST writes: 1 if any masked flag is set, else 0 (46_compare.md R174). -/
def testValue (flags mask : FlagBits) : Word := if flags &&& mask ≠ 0#6 then 1#32 else 0#32

end Sys2Proof.Machine
end

