-- ==== Sys2Proof/Machine/Compare.lean ====
section
/-! DEFINITION. The TEST and CMP groups (46_compare.md R170 to R174). -/

namespace Sys2Proof.Machine

/-- TEST rA, mask (R174). -/
def execTest (rA : Reg) (mask : FlagBits) (s : State) : Result :=
  .next ((s.setReg rA (testValue s.flags mask)).advance 1)

/-- CMP rA, rB (R172). -/
def execCmp (rA rB : Reg) (s : State) : Result :=
  .next ((s.setFlags (cmpFlags s.cfg (s.reg rA) (s.reg rB))).advance 1)

end Sys2Proof.Machine
end

