-- ==== Sys2Proof/Machine/Agents.lean ====
section
/-! DEFINITION. The steps of the agents other than the CPU (60_exceptions.md R212): the video output, the sprite
unit, the IO devices. The fourth, the host, loads the image and asserts reset: `State.loadImage`,
`State.coldStart`, `State.resetSignal` of Ops.lean. -/

namespace Sys2Proof.Machine

/-! ### The video output (R212 a) -/

/-- The video step that produces the vertical sync number `k`: any number of video steps lie between two syncs,
at least one (47_io.md R181; 92_eei_decisions.md D28, the sync recurs for ever; log entry 12). -/
def syncTime : Nat → Nat
  | 0 => Config.syncDelay 0
  | k + 1 => syncTime k + 2 + Config.syncDelay (k + 1)

/-- The video output signals a vertical sync at its step number `n`. -/
def isSyncTick (n : Nat) : Bool := (List.range (n + 1)).any (fun k => syncTime k == n)

/-- The vertical-sync event that ends a VSYNC wait (47_io.md R181), signalled now. -/
def State.verticalSync (s : State) : Bool := isSyncTick s.videoTime

/-- ONE STEP OF THE VIDEO OUTPUT (R212 a). What it shows it reads from `FB[DISPLAYFB]` and BORDER COLOR
(`State.displayedByte`, `State.displayedBorder`); it writes no SRAM byte and no CPU register. -/
def State.videoStep (s : State) : State := { s with videoTime := s.videoTime + 1 }

/-- One step of the video output beside what the CPU did; where the CPU stops, the run stops (log entry 12). -/
def withVideo : Result → Result
  | .next t => .next t.videoStep
  | .fault f => .fault f
  | .refused r => .refused r

/-! ### The sprite unit (R212 b) -/

/-- ONE STEP OF THE SPRITE UNIT: from the kick on it may have drawn any byte of either frame buffer, at a time
and in a way no rule gives (47_io.md R191, U23; log entry 9). It writes no SRAM byte and no CPU register. -/
def State.spriteStep (s : State) : State := { s with fb0 := .drawn, fb1 := .drawn }

/-! ### The IO devices (R212 c) -/

/-- THE STEP OF THE DEVICE BEHIND `port` that answers an IN, with any value (47_io.md R182, U22; log entry 10). -/
def State.deviceStep (s : State) (port : Half) : Word × State :=
  (s.freeWord, s.draw.emit (.input port s.freeWord))

end Sys2Proof.Machine
end

