-- ==== Sys2Proof/Machine/Io.lean ====
section
/-! DEFINITION. The IO group (47_io.md R180 to R190). -/

namespace Sys2Proof.Machine

/-- The CPU holds at the VSYNC (R181). -/
def State.holdSync (s : State) : State := { s with vsyncWait := true }

/-- The hold is lifted (R181). -/
def State.liftSync (s : State) : State := { s with vsyncWait := false }

/-- VSYNC (R181): hold at this instruction until the video output signals its next vertical sync, then go on.
Nothing but the wait and pc changes (log entry 12). -/
def execVsync (s : State) : Result :=
  .next (if s.verticalSync then s.liftSync.advance 1 else s.holdSync)

/-- IN rA, port (R182): any value (U22), which the device supplies. -/
def execInput (rA : Reg) (port : Half) (s : State) : Result :=
  .next (((s.deviceStep port).2.setReg rA (s.deviceStep port).1).advance 2)

/-- OUT rA, port (R183). -/
def execOutput (rA : Reg) (port : Half) (s : State) : Result :=
  .next ((s.emit (.output port (s.reg rA))).advance 2)

/-- DISPLAYFB set to bit 0 of a register value (R186). -/
def State.selectFrame (s : State) (v : Word) : State := { s with displayFB := v.extractLsb' 0 1 }

/-- FSEL rA (R186): takes effect at once. -/
def execFsel (rA : Reg) (s : State) : Result :=
  .next (((s.selectFrame (s.reg rA)).emit (.frameSelect ((s.reg rA).extractLsb' 0 1))).advance 1)

/-- CLF rA (R187): the write-target frame buffer only; the device bytes are not cleared. -/
def execClf (rA : Reg) (s : State) : Result :=
  .next ((s.setFb s.writeTarget ((s.fb s.writeTarget).clear ((s.reg rA).extractLsb' 0 8))).advance 1)

/-- SPRITETABLEPTR and SPRITECOUNT recorded, and the sprite unit kicked: its step may come at any time from now
on, so that both frame buffers lose their defined contents now (R188, R191). -/
def State.kickSprites (s : State) (table count : Word) : State :=
  { s.spriteStep with spriteTablePtr := table, spriteCount := count }

/-- SPRITE rA, rB (R188): the CPU does not wait for the draw. -/
def execSprite (rA rB : Reg) (s : State) : Result :=
  .next (((s.kickSprites (s.reg rA) (s.reg rB)).emit
    (.spriteKick (s.reg rA) (s.reg rB) s.spriteSheetPtr)).advance 1)

/-- SPRITESHEETPTR recorded (R190). -/
def State.setSheet (s : State) (v : Word) : State := { s with spriteSheetPtr := v }

/-- SPRITESHEET rA (R190). -/
def execSpritesheet (rA : Reg) (s : State) : Result :=
  .next ((s.setSheet (s.reg rA)).advance 1)

end Sys2Proof.Machine
end

