-- ==== Sys2Proof/Machine/Logic.lean ====
section
/-! DEFINITION. The LOGICOP group (40_logic.md R100): registers only, one word long. -/

namespace Sys2Proof.Machine

/-- OR rA, rB (R101). -/
def execOr (rA rB : Reg) (s : State) : Result :=
  .next ((s.setReg rA (s.reg rA ||| s.reg rB)).advance 1)

/-- AND rA, rB (R102). -/
def execAnd (rA rB : Reg) (s : State) : Result :=
  .next ((s.setReg rA (s.reg rA &&& s.reg rB)).advance 1)

/-- XOR rA, rB (R103). -/
def execXor (rA rB : Reg) (s : State) : Result :=
  .next ((s.setReg rA (s.reg rA ^^^ s.reg rB)).advance 1)

/-- NOT rA, rB (R104). -/
def execNot (rA rB : Reg) (s : State) : Result :=
  .next ((s.setReg rA (~~~ s.reg rB)).advance 1)

/-- BSL rA, rB (R105). -/
def execBsl (rA rB : Reg) (s : State) : Result :=
  .next ((s.setRegOrFree rA (shiftLeft (s.reg rA) (s.reg rB))).advance 1)

/-- BSR rA, rB (R106). -/
def execBsr (rA rB : Reg) (s : State) : Result :=
  .next ((s.setRegOrFree rA (shiftRight s.cfg.bsrFn (s.reg rA) (s.reg rB))).advance 1)

/-- BSWAP rA, rB (R107). -/
def execBswap (rA rB : Reg) (s : State) : Result :=
  .next ((s.setReg rA (byteSwap (s.reg rB))).advance 1)

end Sys2Proof.Machine
end

