-- ==== Sys2Proof/Machine/Math.lean ====
section
/-! DEFINITION. The MATHOP group (42_math.md R130): results modulo 2^32, no flag, no trap, one word long. -/

namespace Sys2Proof.Machine

/-- IADD rA, rB (R131). -/
def execIadd (rA rB : Reg) (s : State) : Result :=
  .next ((s.setReg rA (s.reg rA + s.reg rB)).advance 1)

/-- ISUB rA, rB (R132). -/
def execIsub (rA rB : Reg) (s : State) : Result :=
  .next ((s.setReg rA (s.reg rA - s.reg rB)).advance 1)

/-- IMUL rA, rB (R133): the low 32 bits of the product. -/
def execImul (rA rB : Reg) (s : State) : Result :=
  .next ((s.setReg rA (s.reg rA * s.reg rB)).advance 1)

/-- IDIV rA, rB (R134): a divisor of zero gives any value (U12) and does not stop. -/
def execIdiv (rA rB : Reg) (s : State) : Result :=
  .next ((s.setRegOrFree rA (quotient s.cfg.divFn (s.reg rA) (s.reg rB))).advance 1)

/-- IMOD rA, rB (R135): a divisor of zero gives any value (U12) and does not stop. -/
def execImod (rA rB : Reg) (s : State) : Result :=
  .next ((s.setRegOrFree rA (remainder s.cfg.modFn (s.reg rA) (s.reg rB))).advance 1)

/-- INEG rA (R136). -/
def execIneg (rA : Reg) (s : State) : Result := .next ((s.setReg rA (0#32 - s.reg rA)).advance 1)

/-- INC rA (R137). -/
def execInc (rA : Reg) (s : State) : Result := .next ((s.setReg rA (s.reg rA + 1#32)).advance 1)

/-- DEC rA (R138). -/
def execDec (rA : Reg) (s : State) : Result := .next ((s.setReg rA (s.reg rA - 1#32)).advance 1)

end Sys2Proof.Machine
end

