-- ==== Sys2Proof/Machine/Mov.lean ====
section
/-! DEFINITION. The MOV group (43_memory_access.md R140 to R151): register-indirect memory accesses and
the forms whose constant follows the instruction word. -/

namespace Sys2Proof.Machine

/-- ST.W [rA], rB (R141). -/
def execStW (rA rB : Reg) (s : State) : Result :=
  andThen (s.store16 (s.reg rA) ((s.reg rB).extractLsb' 0 16)) fun t => .next (t.advance 1)

/-- LD.W rA, [rB] (R142). -/
def execLdWMem (rA rB : Reg) (s : State) : Result :=
  andThen (s.load16 (s.reg rB)) fun v => .next ((s.writeLow16 rA v).advance 1)

/-- CP.W rA, rB (R143). -/
def execCpW (rA rB : Reg) (s : State) : Result :=
  .next ((s.writeLow16 rA ((s.reg rB).extractLsb' 0 16)).advance 1)

/-- LD.W rA, constant (R144). -/
def execLdWImm (rA : Reg) (constant : Half) (s : State) : Result :=
  .next ((s.writeLow16 rA constant).advance 2)

/-- LD.D rA, constant (R145). -/
def execLdDImm (rA : Reg) (constant : Word) (s : State) : Result :=
  .next ((s.setReg rA constant).advance 3)

/-- ST.B [rA], rB (R146): the only store that may reach VRAM and the device bytes. -/
def execStB (rA rB : Reg) (s : State) : Result :=
  andThen (s.store8 (s.reg rA) ((s.reg rB).extractLsb' 0 8)) fun t => .next (t.advance 1)

/-- LD.B rA, [rB] (R147): bits 31:8 of rA keep their value. -/
def execLdBMem (rA rB : Reg) (s : State) : Result :=
  andThen (s.load8 (s.reg rB)) fun b => .next ((s.writeLow8 rA b).advance 1)

/-- LD.B rA, constant (R148): the low byte of the constant word; bits 31:8 of rA keep their value. -/
def execLdBImm (rA : Reg) (constant : Half) (s : State) : Result :=
  .next ((s.writeLow8 rA (constant.extractLsb' 0 8)).advance 2)

/-- LD.D rA, [rB] (R149). -/
def execLdDMem (rA rB : Reg) (s : State) : Result :=
  andThen (s.load32 (s.reg rB)) fun v => .next ((s.setReg rA v).advance 1)

end Sys2Proof.Machine
end

