-- ==== Sys2Proof/Machine/Ret.lean ====
section
/-! DEFINITION. The RET group (44_ret_halt.md R160 to R162). -/

namespace Sys2Proof.Machine

/-- RET (R161): the popped address is used as it is. -/
def execRet (s : State) : Result := andThen s.callPop fun p => .next (p.2.setPc p.1)

/-- HALT (R162): pc keeps the address of the HALT. -/
def execHalt (s : State) : Result := .next s.setHalted

end Sys2Proof.Machine
end

