-- ==== Sys2Proof/Machine/Stack.lean ====
section
/-! DEFINITION. The STACK group (45_stack.md R165 to R167): a stack in SRAM that grows to lower addresses,
SP naming the next free slot. -/

namespace Sys2Proof.Machine

/-- STACK_SLOT_BYTES as an address difference (R166). -/
def State.slotSize (s : State) : Word := BitVec.ofNat 32 s.cfg.stackSlotBytes.bytes

/-- The store of a register value in the slot at `a` (R166). -/
def State.storeSlot (s : State) (a v : Word) : Except Fault State :=
  match s.cfg.stackSlotBytes with
  | .four => s.store32 a v
  | .two => s.store16 a (v.extractLsb' 0 16)

/-- The load of a register from the slot at `a` (R167). -/
def State.loadSlot (s : State) (rA : Reg) (a : Word) : Except Fault State :=
  match s.cfg.stackSlotBytes with
  | .four => (s.load32 a).map (s.setReg rA)
  | .two => (s.load16 a).map (s.writeLow16 rA)

/-- PUSH rA (R166): store at SP, then decrement. -/
def execPush (rA : Reg) (s : State) : Result :=
  andThen (s.storeSlot s.sp (s.reg rA)) fun t => .next ((t.setSp (s.sp - s.slotSize)).advance 1)

/-- POP rA (R167): increment, then load at the new SP. -/
def execPop (rA : Reg) (s : State) : Result :=
  andThen (s.loadSlot rA (s.sp + s.slotSize)) fun t => .next ((t.setSp (s.sp + s.slotSize)).advance 1)

end Sys2Proof.Machine
end

