-- ==== Sys2Proof/Machine/Dispatch.lean ====
section
/-! DEFINITION. `exec`: one arm per constructor of `Instr`, each a direct call of its meaning. -/

namespace Sys2Proof.Machine

def exec (i : Instr) (s : State) : Host.Outcome State Fault Refusal :=
  match i with
  | .or rA rB => Sys2Proof.Machine.execOr rA rB s
  | .and rA rB => Sys2Proof.Machine.execAnd rA rB s
  | .xor rA rB => Sys2Proof.Machine.execXor rA rB s
  | .not rA rB => Sys2Proof.Machine.execNot rA rB s
  | .bsl rA rB => Sys2Proof.Machine.execBsl rA rB s
  | .bsr rA rB => Sys2Proof.Machine.execBsr rA rB s
  | .bswap rA rB => Sys2Proof.Machine.execBswap rA rB s
  | .jmpR rA => Sys2Proof.Machine.execJmpR rA s
  | .jmpifR rA rB => Sys2Proof.Machine.execJmpifR rA rB s
  | .jmpifnotR rA rB => Sys2Proof.Machine.execJmpifnotR rA rB s
  | .callR rA => Sys2Proof.Machine.execCallR rA s
  | .callifR rA rB => Sys2Proof.Machine.execCallifR rA rB s
  | .callifnotR rA rB => Sys2Proof.Machine.execCallifnotR rA rB s
  | .jmpI address => Sys2Proof.Machine.execJmpI address s
  | .jmpifI address rB => Sys2Proof.Machine.execJmpifI address rB s
  | .jmpifnotI address rB => Sys2Proof.Machine.execJmpifnotI address rB s
  | .callI address => Sys2Proof.Machine.execCallI address s
  | .callifI address rB => Sys2Proof.Machine.execCallifI address rB s
  | .callifnotI address rB => Sys2Proof.Machine.execCallifnotI address rB s
  | .iadd rA rB => Sys2Proof.Machine.execIadd rA rB s
  | .isub rA rB => Sys2Proof.Machine.execIsub rA rB s
  | .imul rA rB => Sys2Proof.Machine.execImul rA rB s
  | .idiv rA rB => Sys2Proof.Machine.execIdiv rA rB s
  | .imod rA rB => Sys2Proof.Machine.execImod rA rB s
  | .ineg rA => Sys2Proof.Machine.execIneg rA s
  | .inc rA => Sys2Proof.Machine.execInc rA s
  | .dec rA => Sys2Proof.Machine.execDec rA s
  | .stW rA rB => Sys2Proof.Machine.execStW rA rB s
  | .ldWMem rA rB => Sys2Proof.Machine.execLdWMem rA rB s
  | .cpW rA rB => Sys2Proof.Machine.execCpW rA rB s
  | .ldWImm rA constant => Sys2Proof.Machine.execLdWImm rA constant s
  | .ldDImm rA constant => Sys2Proof.Machine.execLdDImm rA constant s
  | .stB rA rB => Sys2Proof.Machine.execStB rA rB s
  | .ldBMem rA rB => Sys2Proof.Machine.execLdBMem rA rB s
  | .ldBImm rA constant => Sys2Proof.Machine.execLdBImm rA constant s
  | .ldDMem rA rB => Sys2Proof.Machine.execLdDMem rA rB s
  | .ret => Sys2Proof.Machine.execRet s
  | .halt => Sys2Proof.Machine.execHalt s
  | .push rA => Sys2Proof.Machine.execPush rA s
  | .pop rA => Sys2Proof.Machine.execPop rA s
  | .test rA mask => Sys2Proof.Machine.execTest rA mask s
  | .cmp rA rB => Sys2Proof.Machine.execCmp rA rB s
  | .vsync => Sys2Proof.Machine.execVsync s
  | .input rA port => Sys2Proof.Machine.execInput rA port s
  | .output rA port => Sys2Proof.Machine.execOutput rA port s
  | .fsel rA => Sys2Proof.Machine.execFsel rA s
  | .clf rA => Sys2Proof.Machine.execClf rA s
  | .sprite rA rB => Sys2Proof.Machine.execSprite rA rB s
  | .spritesheet rA => Sys2Proof.Machine.execSpritesheet rA s

end Sys2Proof.Machine
end

