-- ==== Sys2Proof/Machine/Fetch.lean ====
section
/-! DEFINITION. Fetching an instruction's words from SRAM and decoding them (20_memory.md R41, R49;
30_encoding.md R60, R72, R74), faults in the order of 60_exceptions.md R205. -/

namespace Sys2Proof.Machine

/-- A byte of SRAM that this configuration does not let be fetched: a store has written it (20_memory.md R49). -/
def State.fetchBarred (s : State) (a : Word) : Bool :=
  match s.cfg.storedFetch with
  | .fault => s.stored.contains a.toNat
  | .latest => false

/-- `Fetch16(a)` (20_memory.md R41): U8, then U21, then U19. -/
def State.fetch16 (s : State) (a : Word) : Except Fault Half :=
  if isOdd a || (span a 2).any (fun b => region b != .sram) then .error .badFetch
  else if (span a 2).any s.fetchBarred then .error .storedCode
  else match s.sramHalf a with
    | some w => .ok w
    | none => .error .noValue

/-- The outcome of a reserved encoding (30_encoding.md R74). -/
def decodeFault : DecodeError → Fault
  | .reservedLogic => .reservedLogic
  | .reservedBranch => .reservedBranch
  | .reservedMath => .reservedMath
  | .reservedMov => .reservedMov
  | .reservedIo => .reservedIo
  | .unusedBase => .unusedBase
  | .truncated => .badFetch

/-- The decoder's answer as a fetch's answer. -/
def decodeFetched (w w1 w2 : Half) : Except Fault Instr :=
  match decodeWords w w1 w2 with
  | .ok i => .ok i
  | .error e => .error (decodeFault e)

/-- The word after the first `k` words of the instruction, fetched only if the instruction is longer than
`k` words (20_memory.md R41). -/
def State.extraWord (s : State) (length k : Nat) : Except Fault Half :=
  if k < length then s.fetch16 (s.nextPc k) else .ok 0#16

/-- The instruction at pc: the first word, its length (30_encoding.md R72: the first word alone tells it),
the extra words it has. -/
def State.fetchInstr (s : State) : Except Fault Instr := do
  let w ← s.fetch16 s.pc
  let i ← decodeFetched w 0#16 0#16
  let w1 ← s.extraWord (i.words s.cfg.branchRegLen) 1
  let w2 ← s.extraWord (i.words s.cfg.branchRegLen) 2
  decodeFetched w w1 w2

/-- The words `ws` from address `a` on, as the host's loader lays them out (70_reset_and_hazards.md R224). -/
def imageAt (order : ByteOrder) (a : Nat) (ws : List Half) : List Host.Cell :=
  (layWords order ws).zipIdx.map (fun c => (a + c.2, c.1))

/-- The state with the words `ws` loaded by the host where the next fetch reads, as code that no store has
written, and with the CPU running. -/
def State.withCode (s : State) (ws : List Half) : State :=
  let image := imageAt s.cfg.wordByteOrder s.pc.toNat ws
  { s.loadImage image with
    stored := s.stored.filter (fun a => !image.any (fun c => c.1 == a)), halted := false }

end Sys2Proof.Machine
end

