-- ==== Sys2Proof/Machine/Step.lean ====
section
/-! DEFINITION. One step of the machine: the CPU's (fetch, decode, execute; a halted CPU stays as it is) with one
of the video output beside it (60_exceptions.md R212). -/

namespace Sys2Proof.Machine

/-- One step: while HALTED is set no instruction runs (10_state.md R23, U30); else the instruction at pc. The
video output goes on in either case. -/
def step (s : State) : Host.Outcome State Fault Refusal :=
  withVideo (if s.halted then .next s else andThen s.fetchInstr fun i => exec i s)

/-- The state with the instruction whose bits are `w` (numbered as spec/opcode_table.json numbers them, every
bit from `nbits` up 0) loaded at pc. -/
def State.withFetchWord (s : State) (nbits w : Nat) : State := s.withCode (tableWords nbits w)

end Sys2Proof.Machine
end

