-- ==== Sys2Proof/Syntax/Source.lean ====
section
/-! DEFINITION. Assembler source (30_encoding.md R80 to R88) as data: statements whose operands are numbers
and names that nothing has checked yet. WellFormed.lean says which are well formed. -/

namespace Sys2Proof

/-- A label's name. -/
abbrev Label := List Char

/-- The flag names of TEST's mask operand (R85). -/
inductive FlagName where
  | equal
  | greater
  | less
  | notZero
  | notEqual
  | zero
  deriving DecidableEq, Repr

/-- The mnemonics: the forty of spec/opcode_table.json, and the conveniences noop (R87) and lea (R88). -/
inductive Mnemonic where
  | or | and | xor | not | bsl | bsr | bswap
  | jmp | jmpif | jmpifnot | call | callif | callifnot
  | iadd | isub | imul | idiv | imod | ineg | inc | dec
  | stW | ldW | cpW | ldD | stB | ldB
  | ret | halt | push | pop | test | cmp
  | vsync | input | output | fsel | clf | sprite | spritesheet
  | noop | lea
  deriving DecidableEq, Repr

/-- An operand as written (R81, R85). -/
inductive Operand where
  /-- `r<n>` -/
  | reg (n : Nat)
  /-- `[r<n>]` -/
  | mem (n : Nat)
  /-- a hexadecimal constant -/
  | const (v : Nat)
  /-- a label, which stands for its address -/
  | label (l : Label)
  /-- the flag names of a TEST -/
  | flags (fs : List FlagName)
  deriving DecidableEq, Repr

/-- A source statement: an instruction or a directive (R80, R86). -/
inductive Statement where
  | ins (m : Mnemonic) (ops : List Operand)
  | org (address : Operand)
  | label (l : Label)
  | dw (words : List Nat)
  deriving DecidableEq, Repr

end Sys2Proof
end

