-- ==== Sys2Proof/WellFormed.lean ====
section
/-! DEFINITION. The checks on terms that their types leave open: the configuration's constraints
(00_scope.md R6, 45_stack.md R166, 92_eei_decisions.md D16, D17) and the assembler's operands
(30_encoding.md R81 to R89). An `Instr` needs no check: each operand's type has exactly the values its
field of the encoding has. -/

namespace Sys2Proof

/-- SP_RESET is even, and the first slot is inside SRAM (45_stack.md R166; D16). -/
def NekoConfig.wfSp (cfg : NekoConfig) : Bool :=
  !cfg.spReset.getLsbD 0 && decide (cfg.spReset.toNat + cfg.stackSlotBytes.bytes ≤ 0x80000)

/-- CALLSTACK_DEPTH is in 1..65536 (00_scope.md R6; D17). -/
def NekoConfig.wfDepth (cfg : NekoConfig) : Bool :=
  decide (1 ≤ cfg.callStackDepth) && decide (cfg.callStackDepth ≤ 65536)

/-- A configuration the spec admits. -/
def NekoConfig.wf (cfg : NekoConfig) : Bool := cfg.wfSp && cfg.wfDepth

/-- A register is r0 to r15 and a constant has at most 32 bits (R81). -/
def Operand.wf : Operand → Bool
  | .reg n | .mem n => decide (n < 16)
  | .const v => decide (v < 2 ^ 32)
  | .label _ | .flags _ => true

/-- An operand that stands for a number: a constant or a label (R81). -/
def Operand.isValue : Operand → Bool
  | .const _ | .label _ => true
  | _ => false

/-- A number of at most 16 bits, for the forms whose constant is one word (R89); a label's address is
checked when it is known. -/
def Operand.isHalf : Operand → Bool
  | .const v => decide (v < 2 ^ 16)
  | .label _ => true
  | _ => false

/-- The operand shapes that have an encoding (R82 to R84); all others are refused (R89). -/
def Mnemonic.accepts : Mnemonic → List Operand → Bool
  | .not, [.reg _] => true
  | .or, [.reg _, .reg _] | .and, [.reg _, .reg _] | .xor, [.reg _, .reg _] => true
  | .not, [.reg _, .reg _] | .bsl, [.reg _, .reg _] | .bsr, [.reg _, .reg _] => true
  | .bswap, [.reg _, .reg _] => true
  | .jmp, [.reg _] | .call, [.reg _] => true
  | .jmp, [t] | .call, [t] => t.isValue
  | .jmpif, [.reg _, .reg _] | .jmpifnot, [.reg _, .reg _] => true
  | .callif, [.reg _, .reg _] | .callifnot, [.reg _, .reg _] => true
  | .jmpif, [t, .reg _] | .jmpifnot, [t, .reg _] => t.isValue
  | .callif, [t, .reg _] | .callifnot, [t, .reg _] => t.isValue
  | .iadd, [.reg _, .reg _] | .isub, [.reg _, .reg _] | .imul, [.reg _, .reg _] => true
  | .idiv, [.reg _, .reg _] | .imod, [.reg _, .reg _] => true
  | .ineg, [.reg _] | .inc, [.reg _] | .dec, [.reg _] => true
  | .stW, [.mem _, .reg _] | .stB, [.mem _, .reg _] => true
  | .cpW, [.reg _, .reg _] => true
  | .ldW, [.reg _, .mem _] | .ldB, [.reg _, .mem _] | .ldD, [.reg _, .mem _] => true
  | .ldW, [.reg _, v] | .ldB, [.reg _, v] => v.isHalf
  | .ldD, [.reg _, v] => v.isValue
  | .ret, [] | .halt, [] | .vsync, [] | .noop, [] => true
  | .push, [.reg _] | .pop, [.reg _] => true
  | .test, [.reg _, .flags _] => true
  | .cmp, [.reg _, .reg _] | .sprite, [.reg _, .reg _] => true
  | .input, [.reg _, v] | .output, [.reg _, v] => v.isHalf
  | .fsel, [.reg _] | .clf, [.reg _] | .spritesheet, [.reg _] => true
  | .lea, [.reg _, .label _] => true
  | _, _ => false

/-- A statement the assembler takes: operands in range and a shape that has an encoding; `@DW` values
are words, and `@ORG` takes a number (R86). -/
def Statement.wf : Statement → Bool
  | .ins m ops => ops.all Operand.wf && m.accepts ops
  | .org a => a.wf && a.isValue
  | .label l => !l.isEmpty
  | .dw ws => ws.all (fun w => decide (w < 2 ^ 16))

end Sys2Proof
end

