-- ==== Sys2Proof/Machine/Assembler.lean ====
section
/-! DEFINITION. The assembler: source statements to the bytes of a ROM image (30_encoding.md R77, R80 to
R89; 70_reset_and_hazards.md R224). Two passes: the first gives every statement its address and every label
its value, the second emits. -/

namespace Sys2Proof.Machine

/-- Why a source is refused. -/
inductive AsmError where
  /-- A register number over 15, a shape without an encoding, a constant that does not fit (R89). -/
  | illFormed
  /-- A label that stands for more than 16 bits in a one-word constant, or for more than 32. -/
  | tooWide
  /-- A label that no `@LABEL` defines, or, in an `@ORG`, none before it. -/
  | unknownLabel
  /-- A label defined twice. -/
  | duplicateLabel
  /-- A byte of the image outside SRAM (DESIGN CHOICE, log entry 26: the spec is silent). -/
  | outsideSram
  /-- A line that is no statement. -/
  | badLine
  deriving DecidableEq, Repr

/-- The mask bit of a flag name (R85). -/
def FlagName.mask : FlagName → FlagBits
  | .equal => 0x01#6
  | .greater => 0x02#6
  | .less => 0x04#6
  | .notZero => 0x08#6
  | .notEqual => 0x10#6
  | .zero => 0x20#6

/-- The mask a list of flag names stands for (R85). -/
def flagMask (fs : List FlagName) : FlagBits := fs.foldl (fun m f => m ||| FlagName.mask f) 0#6

/-- The values of labels. -/
abbrev LabelTable := List (Label × Nat)

/-- The register of a register operand. -/
def asReg (n : Nat) : Except AsmError Reg := if n < 16 then .ok (BitVec.ofNat 4 n) else .error .illFormed

/-- The number a constant or a label stands for; `look` gives the labels. -/
def asNumber (look : Label → Option Nat) : Operand → Except AsmError Nat
  | .const v => .ok v
  | .label l => match look l with
    | some v => .ok v
    | none => .error .unknownLabel
  | _ => .error .illFormed

/-- A 32-bit constant or address. -/
def asWord (look : Label → Option Nat) (o : Operand) : Except AsmError Word := do
  let v ← asNumber look o
  if v < 2 ^ 32 then .ok (BitVec.ofNat 32 v) else .error .tooWide

/-- A 16-bit constant. -/
def asHalf (look : Label → Option Nat) (o : Operand) : Except AsmError Half := do
  let v ← asNumber look o
  if v < 2 ^ 16 then .ok (BitVec.ofNat 16 v) else .error .tooWide

/-- An instruction with one register operand. -/
def oneReg (f : Reg → Instr) (a : Nat) : Except AsmError Instr := do return f (← asReg a)

/-- An instruction with two register operands. -/
def twoReg (f : Reg → Reg → Instr) (a b : Nat) : Except AsmError Instr := do return f (← asReg a) (← asReg b)

/-- A conditional branch with an immediate target. -/
def branchTo (look : Label → Option Nat) (f : Word → Reg → Instr) (t : Operand) (b : Nat) :
    Except AsmError Instr := do return f (← asWord look t) (← asReg b)

/-- An instruction with a register and a one-word constant. -/
def regHalf (look : Label → Option Nat) (f : Reg → Half → Instr) (a : Nat) (v : Operand) :
    Except AsmError Instr := do return f (← asReg a) (← asHalf look v)

/-- The instruction a source instruction stands for (R82 to R88); the bracketed form of a mnemonic with two
encodings is the memory form. -/
def assembleInstr (look : Label → Option Nat) : Mnemonic → List Operand → Except AsmError Instr
  | .or, [.reg a, .reg b] => twoReg .or a b
  | .and, [.reg a, .reg b] => twoReg .and a b
  | .xor, [.reg a, .reg b] => twoReg .xor a b
  | .not, [.reg a] => twoReg .not a a
  | .not, [.reg a, .reg b] => twoReg .not a b
  | .bsl, [.reg a, .reg b] => twoReg .bsl a b
  | .bsr, [.reg a, .reg b] => twoReg .bsr a b
  | .bswap, [.reg a, .reg b] => twoReg .bswap a b
  | .jmp, [.reg a] => oneReg .jmpR a
  | .jmp, [t] => do return .jmpI (← asWord look t)
  | .jmpif, [.reg a, .reg b] => twoReg .jmpifR a b
  | .jmpif, [t, .reg b] => branchTo look .jmpifI t b
  | .jmpifnot, [.reg a, .reg b] => twoReg .jmpifnotR a b
  | .jmpifnot, [t, .reg b] => branchTo look .jmpifnotI t b
  | .call, [.reg a] => oneReg .callR a
  | .call, [t] => do return .callI (← asWord look t)
  | .callif, [.reg a, .reg b] => twoReg .callifR a b
  | .callif, [t, .reg b] => branchTo look .callifI t b
  | .callifnot, [.reg a, .reg b] => twoReg .callifnotR a b
  | .callifnot, [t, .reg b] => branchTo look .callifnotI t b
  | .iadd, [.reg a, .reg b] => twoReg .iadd a b
  | .isub, [.reg a, .reg b] => twoReg .isub a b
  | .imul, [.reg a, .reg b] => twoReg .imul a b
  | .idiv, [.reg a, .reg b] => twoReg .idiv a b
  | .imod, [.reg a, .reg b] => twoReg .imod a b
  | .ineg, [.reg a] => oneReg .ineg a
  | .inc, [.reg a] => oneReg .inc a
  | .dec, [.reg a] => oneReg .dec a
  | .stW, [.mem a, .reg b] => twoReg .stW a b
  | .ldW, [.reg a, .mem b] => twoReg .ldWMem a b
  | .ldW, [.reg a, v] => regHalf look .ldWImm a v
  | .cpW, [.reg a, .reg b] => twoReg .cpW a b
  | .ldD, [.reg a, .mem b] => twoReg .ldDMem a b
  | .ldD, [.reg a, v] => do return .ldDImm (← asReg a) (← asWord look v)
  | .stB, [.mem a, .reg b] => twoReg .stB a b
  | .ldB, [.reg a, .mem b] => twoReg .ldBMem a b
  | .ldB, [.reg a, v] => regHalf look .ldBImm a v
  | .ret, [] => .ok .ret
  | .halt, [] => .ok .halt
  | .push, [.reg a] => oneReg .push a
  | .pop, [.reg a] => oneReg .pop a
  | .test, [.reg a, .flags fs] => oneReg (Instr.test · (flagMask fs)) a
  | .cmp, [.reg a, .reg b] => twoReg .cmp a b
  | .vsync, [] => .ok .vsync
  | .input, [.reg a, v] => regHalf look .input a v
  | .output, [.reg a, v] => regHalf look .output a v
  | .fsel, [.reg a] => oneReg .fsel a
  | .clf, [.reg a] => oneReg .clf a
  | .sprite, [.reg a, .reg b] => twoReg .sprite a b
  | .spritesheet, [.reg a] => oneReg .spritesheet a
  | .noop, [] => .ok (.or 0 0)
  | .lea, [.reg a, .label l] => do return .ldDImm (← asReg a) (← asWord look (.label l))
  | _, _ => .error .illFormed

/-- The words a statement emits; a directive other than `@DW` emits none. -/
def statementWords (cfg : NekoConfig) (look : Label → Option Nat) : Statement → Except AsmError (List Half)
  | .ins m ops => do return encode cfg.branchRegLen (← assembleInstr look m ops)
  | .dw ws => .ok (ws.map (BitVec.ofNat 16))
  | .org _ | .label _ => .ok []

/-- First pass: the address of every statement and the values of the labels, in source order from address
`at_`. A statement's length does not depend on the labels' values. -/
def placeStatements (cfg : NekoConfig) : LabelTable → Nat → List Statement →
    Except AsmError (List (Nat × Statement) × LabelTable)
  | table, _, [] => .ok ([], table)
  | table, at_, st :: rest => do
    let words ← statementWords cfg (fun _ => some 0) st
    let at_ ← match st with
      | .org a => asNumber (fun l => table.lookup l) a
      | _ => Except.ok at_
    let table ← match st with
      | .label l => if (table.lookup l).isSome then Except.error AsmError.duplicateLabel else .ok ((l, at_) :: table)
      | _ => Except.ok table
    let (placed, table) ← placeStatements cfg table (at_ + 2 * words.length) rest
    return ((at_, st) :: placed, table)

/-- Second pass: the bytes of the placed statements. -/
def emitStatements (cfg : NekoConfig) (table : LabelTable) : List (Nat × Statement) →
    Except AsmError (List Host.Cell)
  | [] => .ok []
  | (a, st) :: rest => do
    let words ← statementWords cfg (fun l => table.lookup l) st
    return imageAt cfg.wordByteOrder a words ++ (← emitStatements cfg table rest)

/-- The image of a source; the origin without an `@ORG` is 0 (70_reset_and_hazards.md R224). DESIGN CHOICE (log
entry 26): a source that places a byte outside SRAM, by an `@ORG` or by running past the end, is refused as a
whole, of which the spec says nothing. -/
def assemble (cfg : NekoConfig) (source : List Statement) : Except AsmError (List Host.Cell) := do
  if !source.all Statement.wf then .error .illFormed
  let (placed, table) ← placeStatements cfg [] 0 source
  let image ← emitStatements cfg table placed
  if image.all (fun c => decide (c.1 < sramSize)) then .ok image else .error .outsideSram

end Sys2Proof.Machine
end

