-- ==== Sys2Proof/Machine/Lexer.lean ====
section
/-! DEFINITION. Assembler source text to statements (30_encoding.md R80, R81, R83 to R86). What the manual
shows in upper case only (headings) or not at all (decimal constants, mnemonics in capitals) is refused. -/

namespace Sys2Proof.Machine

/-- The text before a `//` comment (R80). -/
def stripComment : List Char → List Char
  | '/' :: '/' :: _ => []
  | c :: rest => c :: stripComment rest
  | [] => []

/-- The maximal runs of characters that are not separators (`isSep`), `run` being the current one reversed. -/
def splitOn (isSep : Char → Bool) : List Char → List Char → List (List Char)
  | run, [] => if run.isEmpty then [] else [run.reverse]
  | run, c :: rest =>
    if isSep c then (if run.isEmpty then splitOn isSep [] rest else run.reverse :: splitOn isSep [] rest)
    else splitOn isSep (c :: run) rest

/-- Space, tab, carriage return, comma, and the semicolon that may end a statement (R80). DESIGN CHOICE (log
entry 25): each separates wherever it stands, so that operands may also stand without a comma between them, and a
semicolon elsewhere than at the end of a statement; the spec's own spelling has the comma and leaves open whether
the other is accepted (91_not_in_source.md N14). -/
def isSeparator (c : Char) : Bool := c == ' ' || c == '\t' || c == '\r' || c == ',' || c == ';'

/-- The value of a hexadecimal digit. -/
def hexDigit (c : Char) : Option Nat :=
  if '0' ≤ c ∧ c ≤ '9' then some (c.toNat - '0'.toNat)
  else if 'a' ≤ c ∧ c ≤ 'f' then some (c.toNat - 'a'.toNat + 10)
  else if 'A' ≤ c ∧ c ≤ 'F' then some (c.toNat - 'A'.toNat + 10)
  else none

/-- The number that digits of a base write, most significant first, after the digits worth `v`. -/
def digitsFrom (base v : Nat) : List Char → Option Nat
  | [] => some v
  | c :: rest => match hexDigit c with
    | some d => if d < base then digitsFrom base (v * base + d) rest else none
    | none => none

/-- A `0x` constant (R81). -/
def hexConstant : List Char → Option Nat
  | '0' :: 'x' :: c :: rest => digitsFrom 16 0 (c :: rest)
  | _ => none

/-- `r<n>` (R81). DESIGN CHOICE (log entry 25; 91_not_in_source.md N2 gives no grammar): any `r` followed by
decimal digits alone is a register number, leading zeros included (`r01` is r1), and never a label's name; one
over 15 is refused later (`Operand.wf`). -/
def registerNumber : List Char → Option Nat
  | 'r' :: c :: rest => digitsFrom 10 0 (c :: rest)
  | _ => none

/-- `[r<n>]` (R81). -/
def bracketedRegister : List Char → Option Nat
  | '[' :: rest => match rest.reverse with
    | ']' :: inner => registerNumber inner.reverse
    | _ => none
  | _ => none

/-- A name: neither empty nor beginning with a digit, `@` or `[`. DESIGN CHOICE (log entry 25;
91_not_in_source.md N2 gives no grammar of names): every other token is one. -/
def isName : List Char → Bool
  | [] => false
  | c :: _ => !c.isDigit && c != '@' && c != '['

/-- An operand that is one token: register, bracketed register, constant or label (R81), in this order, so that a
label named like a register is never meant (DESIGN CHOICE, log entry 25). -/
def operandOf (t : List Char) : Except AsmError Operand :=
  match registerNumber t, bracketedRegister t, hexConstant t with
  | some n, _, _ => .ok (.reg n)
  | _, some n, _ => .ok (.mem n)
  | _, _, some v => .ok (.const v)
  | _, _, _ => if isName t then .ok (.label t) else .error .badLine

/-- The flag names (R85). -/
def flagNames : List (String × FlagName) :=
  [("equal", .equal), ("greater", .greater), ("less", .less), ("notzero", .notZero),
    ("notequal", .notEqual), ("zero", .zero)]

/-- The mnemonics as written (R80). -/
def mnemonicNames : List (String × Mnemonic) :=
  [("or", .or), ("and", .and), ("xor", .xor), ("not", .not), ("bsl", .bsl), ("bsr", .bsr),
    ("bswap", .bswap), ("jmp", .jmp), ("jmpif", .jmpif), ("jmpifnot", .jmpifnot), ("call", .call),
    ("callif", .callif), ("callifnot", .callifnot)]
  ++ [("iadd", .iadd), ("isub", .isub), ("imul", .imul), ("idiv", .idiv), ("imod", .imod),
    ("ineg", .ineg), ("inc", .inc), ("dec", .dec), ("st.w", .stW), ("ld.w", .ldW), ("cp.w", .cpW),
    ("ld.d", .ldD), ("st.b", .stB), ("ld.b", .ldB)]
  ++ [("ret", .ret), ("halt", .halt), ("push", .push), ("pop", .pop), ("test", .test), ("cmp", .cmp),
    ("vsync", .vsync), ("in", .input), ("out", .output), ("fsel", .fsel), ("clf", .clf),
    ("sprite", .sprite), ("spritesheet", .spritesheet), ("noop", .noop), ("lea", .lea)]

/-- The entry of a table under a written name. -/
def namedEntry {α : Type} (table : List (String × α)) (t : List Char) : Option α :=
  (table.find? (fun e => e.1.toList == t)).map (·.2)

/-- The flag list of a TEST (R85): at least one name. -/
def flagsOf (ts : List (List Char)) : Except AsmError Operand :=
  match ts.mapM (namedEntry flagNames) with
  | some (f :: fs) => .ok (.flags (f :: fs))
  | _ => .error .badLine

/-- The operands of an instruction (R81, R85). -/
def operandsOf (m : Mnemonic) (ts : List (List Char)) : Except AsmError (List Operand) :=
  match m, ts with
  | .test, a :: fs => do return [← operandOf a, ← flagsOf fs]
  | _, ts => ts.mapM operandOf

/-- The statement of a line's tokens (R80, R86). -/
def statementOf : List (List Char) → Except AsmError Statement
  | [] => .error .badLine
  | head :: ts =>
    if head = "@ORG".toList then
      match ts with
      | [a] => do return .org (← operandOf a)
      | _ => .error .badLine
    else if head = "@LABEL".toList then
      match ts with
      | [l] => if isName l then .ok (.label l) else .error .badLine
      | _ => .error .badLine
    else if head = "@DW".toList then
      match ts.mapM hexConstant with
      | some (w :: ws) => .ok (.dw (w :: ws))
      | _ => .error .badLine
    else match namedEntry mnemonicNames head with
      | some m => do return .ins m (← operandsOf m ts)
      | none => .error .badLine

/-- The statements of a source text; lines without tokens are left out (R80). -/
def parseSource (text : List Char) : Except AsmError (List Statement) :=
  (((splitOn (· == '\n') [] text).map (fun l => splitOn isSeparator [] (stripComment l))).filter
    (fun ts => !ts.isEmpty)).mapM statementOf

/-- The ROM image of a source text. -/
def assembleText (cfg : NekoConfig) (text : String) : Except AsmError (List Host.Cell) := do
  assemble cfg (← parseSource text.toList)

end Sys2Proof.Machine
end

