-- ==== Sys2Proof/Safety.lean ====
section
/-! DEFINITION. The words claims are stated in: what an instruction leaves unchanged, the invariant of a
run, and what a safe run and the end of a run are (70_reset_and_hazards.md R226). -/

namespace Sys2Proof.Machine

/-- The parts of the state other than pc, as frames name them. -/
inductive Part where
  | cfg
  | regs
  | sp
  | flags
  | callStack
  /-- every byte of SRAM, of both frame buffers, and of the device bytes -/
  | bytes
  /-- which SRAM bytes a store has written (20_memory.md R49) -/
  | stored
  | displayFB
  | sprites
  | halted
  /-- the CPU's VSYNC wait -/
  | vsync
  /-- how far the video output is (60_exceptions.md R212 a) -/
  | video
  | events
  | draws
  deriving DecidableEq, Repr

/-- A part of the state is the same in both states, memory through its read of one byte. -/
def Part.same : Part → State → State → Prop
  | .cfg, s, t => t.cfg = s.cfg
  | .regs, s, t => ∀ r, t.reg r = s.reg r
  | .sp, s, t => t.sp = s.sp
  | .flags, s, t => t.flags = s.flags
  | .callStack, s, t => t.callStack = s.callStack
  | .bytes, s, t => ∀ p, t.byteAt p = s.byteAt p
  | .stored, s, t => t.stored = s.stored
  | .displayFB, s, t => t.displayFB = s.displayFB
  | .sprites, s, t => t.spriteSheetPtr = s.spriteSheetPtr ∧ t.spriteTablePtr = s.spriteTablePtr ∧
      t.spriteCount = s.spriteCount
  | .halted, s, t => t.halted = s.halted
  | .vsync, s, t => t.vsyncWait = s.vsyncWait
  | .video, s, t => t.videoTime = s.videoTime
  | .events, s, t => t.events = s.events
  | .draws, s, t => t.draws = s.draws

/-- Every part but those listed (and pc) is the same in both states. -/
def KeepsAllBut (ps : List Part) (s t : State) : Prop := ∀ p, p ∉ ps → p.same s t

/-- From `s` to `t`: register `rA` gets `v`, pc moves `n` words on, every other register and every part
outside `regs` and `ps` is unchanged. -/
structure WritesReg (s t : State) (rA : Reg) (v : Word) (n : Nat) (ps : List Part) : Prop where
  value : t.reg rA = v
  pc : t.pc = s.nextPc n
  others : ∀ r, r ≠ rA → t.reg r = s.reg r
  frame : KeepsAllBut (.regs :: ps) s t

/-- `i` run in `s` answers a next state, and that state has the property. -/
def Completes (i : Instr) (s : State) (P : State → Prop) : Prop := ∃ t, exec i s = .next t ∧ P t

/-- `i` run in `s` stops with the fault. -/
def StopsWith (i : Instr) (s : State) (f : Fault) : Prop := exec i s = .fault f

/-- `i` writes `v` to `rA` over `n` words and changes nothing else but pc. -/
def ResultIn (i : Instr) (s : State) (rA : Reg) (v : Word) (n : Nat) : Prop :=
  Completes i s fun t => WritesReg s t rA v n []

/-- `i` writes the next free value to `rA` over one word, uses it up, and changes nothing else but pc. -/
def FreeResultIn (i : Instr) (s : State) (rA : Reg) : Prop :=
  Completes i s fun t => WritesReg s t rA (Config.freeWord s.draws) 1 [.draws] ∧ t.draws = s.draws + 1

/-- Control goes to `v`; nothing else changes. -/
def GoesTo (s t : State) (v : Word) : Prop := t.pc = v ∧ KeepsAllBut [] s t

/-- Control goes to `v` with `next` pushed on the call stack; nothing else changes. -/
def CallsTo (s t : State) (v next : Word) : Prop :=
  t.pc = v ∧ t.callStack = s.callStack ++ [next] ∧ KeepsAllBut [.callStack] s t

/-- The 19 low bits of an address, zero-extended (41_branch.md R112). -/
def lowTarget (t : Word) : Word := BitVec.ofNat 32 (t.toNat % 2 ^ 19)

/-- A conditional jump (41_branch.md R114): `sense` true jumps when the condition register `c` is 1 and
goes on at `next` when it is 0, `sense` false the other way round; any other `c` is U16. -/
def JumpsOn (i : Instr) (s : State) (sense : Bool) (c target next : Word) : Prop :=
  (c = (if sense then 1#32 else 0#32) → Completes i s (GoesTo s · (lowTarget target))) ∧
  (c = (if sense then 0#32 else 1#32) → Completes i s (GoesTo s · next)) ∧
  (c ≠ 0#32 → c ≠ 1#32 → StopsWith i s .conditionNotBool)

/-- A call that is taken (41_branch.md R113, 10_state.md R18): `next` is pushed unless the call stack is
full, which is U17. -/
def Calls (i : Instr) (s : State) (target next : Word) : Prop :=
  (s.callStack.length < s.cfg.callStackDepth → Completes i s (CallsTo s · (lowTarget target) next)) ∧
  (s.callStack.length = s.cfg.callStackDepth → StopsWith i s .callStackFull)

/-- A conditional call: the condition governs the push and the jump together (41_branch.md R113, R114). -/
def CallsOn (i : Instr) (s : State) (sense : Bool) (c target next : Word) : Prop :=
  (c = (if sense then 1#32 else 0#32) → Calls i s target next) ∧
  (c = (if sense then 0#32 else 1#32) → Completes i s (GoesTo s · next)) ∧
  (c ≠ 0#32 → c ≠ 1#32 → StopsWith i s .conditionNotBool)

/-- What a 16-bit write leaves in a register that held `old` (43_memory_access.md R151). -/
def low16Result (u : UpperHalf) (old : Word) (v : Half) : Word :=
  match u with
  | .zero => BitVec.ofNat 32 v.toNat
  | .preserve => BitVec.ofNat 32 (old.toNat / 2 ^ 16 * 2 ^ 16 + v.toNat)

/-- What a byte write leaves in a register that held `old` (43_memory_access.md R147). -/
def low8Result (old : Word) (b : Byte) : Word := BitVec.ofNat 32 (old.toNat / 2 ^ 8 * 2 ^ 8 + b.toNat)

/-- The only bytes that may differ are the `n` bytes stored to at `a`, and in SRAM exactly those are
remembered as stored. -/
def StoresOnlyTo (s t : State) (a : Word) (n : Nat) : Prop :=
  (∀ p, p ∉ s.placesOf a n → t.byteAt p = s.byteAt p) ∧
  (∀ c, c ∈ t.stored ↔ c ∈ s.stored ∨ (a.toNat ≤ c ∧ c < a.toNat + n ∧ c < sramSize))

/-- The stops of an access of `n` bytes at `a`, first that applies (60_exceptions.md R205): U9, then `wide`
(U10 or U11), then U7. -/
def AccessStops (i : Instr) (s : State) (a : Word) (n : Nat) (wide : Fault) : Prop :=
  ((∃ b ∈ span a n, region b = .absent) → StopsWith i s .outsideMap) ∧
  ((∀ b ∈ span a n, region b ≠ .absent) → (∃ b ∈ span a n, region b ≠ .sram) → StopsWith i s wide) ∧
  ((∀ b ∈ span a n, region b = .sram) → n ≠ 1 → isOdd a = true → StopsWith i s .misaligned)

/-- The stops of a load: those of the access, then U19 for a byte that holds no value. -/
def LoadStops (i : Instr) (s : State) (a : Word) (n : Nat) : Prop :=
  AccessStops i s a n .videoLoad ∧
  ((∀ b ∈ span a n, region b = .sram) → n = 1 ∨ isOdd a = false →
    (∃ b ∈ span a n, s.byteAt (.sram b.toNat) = none) → StopsWith i s .noValue)

/-- a < b in the configuration's reading (46_compare.md R173 a). -/
def Ordered (sign : CmpSign) (a b : Word) : Prop :=
  match sign with
  | .signed => a.toInt < b.toInt
  | .unsigned => a.toNat < b.toNat

/-- Bit `k` of FLAGS (10_state.md R15). -/
def State.flag (s : State) (k : Nat) : Bool := s.flags.getLsbD k

/-- `TEST rC, mask` run in `t` writes 1 to rC if `P` holds and 0 if it does not, and nothing else
(46_compare.md R174). -/
def TestTells (rC : Reg) (mask : FlagBits) (t : State) (P : Prop) : Prop :=
  (P → ResultIn (.test rC mask) t rC 1#32 1) ∧ (¬ P → ResultIn (.test rC mask) t rC 0#32 1)

/-- A register field at bit `k` of an instruction word, as 30_encoding.md R77 writes it: `r << k`. -/
def fieldAt (r : Reg) (k : Nat) : Half := r.setWidth 16 <<< k

/-- The canonical words of `i` are the one word `w`, and `w` decodes to `i`. -/
def EncodedAs (i : Instr) (w : Half) : Prop := (∀ n, encode n i = [w]) ∧ decodeWords w 0#16 0#16 = .ok i

/-- Every byte of the `n` bytes at `a` is in SRAM. -/
def InSram (a : Word) (n : Nat) : Prop := a.toNat + n ≤ sramSize

/-- Memory in canonical form, and every byte a store has written holding a value. -/
structure State.Canonical (s : State) : Prop where
  sram : Memory.wf sramSize sramUnlisted s.sram
  fb0 : s.fb0.wf
  fb1 : s.fb1.wf
  storedRising : s.stored.Pairwise (· < ·)
  storedHeld : ∀ a ∈ s.stored, (Memory.read s.sram a).isSome = true

/-- An address that the instruction after a fetched one can have: even and at most 0x00080000
(44_ret_halt.md R161). -/
def IsReturnAddress (v : Word) : Prop := isOdd v = false ∧ v.toNat ≤ 0x80000

/-- The call stack holds at most `CALLSTACK_DEPTH` entries, each a possible return address. -/
structure State.CallsOk (s : State) : Prop where
  depth : s.callStack.length ≤ s.cfg.callStackDepth
  entries : ∀ v ∈ s.callStack, IsReturnAddress v

/-- The invariant of every run. -/
structure State.Inv (s : State) : Prop where
  canonical : s.Canonical
  calls : s.CallsOk
  pcInRange : s.pc.toNat ≤ 0x80000
  spEven : isOdd s.sp = false
  serviceOff : s.vbsEnable = 0#8

/-- `t` is reached from `s` by steps that answer a next state. -/
inductive Reaches : State → State → Prop where
  | here (s : State) : Reaches s s
  | more {s t u : State} : Reaches s t → step t = .next u → Reaches s u

/-- A safe run: no reachable state faults or is refused. -/
def RunsSafely (s : State) : Prop := ∀ t, Reaches s t → ∃ u, step t = .next u

/-- A run from `s` that ends, in `t` (70_reset_and_hazards.md R226): HALT has executed, and only that. -/
def EndsIn (s t : State) : Prop := Reaches s t ∧ t.halted = true

/-- How many bits the number has that a form's constant or label stands for: 16 where it is one word (LD.W, LD.B,
IN, OUT), else 32 (30_encoding.md R72, R73, R89). -/
def valueBits : Mnemonic → Nat
  | .ldW | .ldB | .input | .output => 16
  | _ => 32

/-- A source instruction that stands for a machine instruction: well formed, and each label in it has a value
that fits. -/
def Assembles (look : Label → Option Nat) (m : Mnemonic) (ops : List Operand) : Prop :=
  (Statement.ins m ops).wf = true ∧
    ∀ l, Operand.label l ∈ ops → ∃ v, look l = some v ∧ v < 2 ^ valueBits m

/-- The code bytes `bs` stand at pc as a fetch can read them: pc is even, they lie in SRAM, each holds its
value and none is barred from being fetched (20_memory.md R41, R49). -/
structure State.HoldsCode (s : State) (bs : List Byte) : Prop where
  even : isOdd s.pc = false
  inside : s.pc.toNat + bs.length ≤ sramSize
  bytes : ∀ k b, bs[k]? = some b → s.sramByte (s.pc + BitVec.ofNat 32 k) = some b
  fetchable : ∀ k, k < bs.length → s.fetchBarred (s.pc + BitVec.ofNat 32 k) = false

end Sys2Proof.Machine
end

