-- ==== Sys2Proof/Certificates/Slice0/Obligations.lean ====
section
/-! DEFINITION. The statements for the provers. Each docstring names the rules a statement follows and, where
it rests on a choice of the spec's own or of the model's, says so. -/

open Sys2Proof Sys2Proof.Machine

/-! ### Logic -/

/-- AND, XOR and NOT (40_logic.md R102, R103, R104): the canonical word, the result on all 32 bits, pc + 2,
and nothing else changed. -/
def Obligations.AndXorNotResults : Prop :=
  ∀ (s : State) (rA rB : Reg),
    (EncodedAs (.and rA rB) (fieldAt rB 11 ||| fieldAt rA 7 ||| 0x0010#16) ∧
      ResultIn (.and rA rB) s rA (s.reg rA &&& s.reg rB) 1) ∧
    (EncodedAs (.xor rA rB) (fieldAt rB 11 ||| fieldAt rA 7 ||| 0x0020#16) ∧
      ResultIn (.xor rA rB) s rA (s.reg rA ^^^ s.reg rB) 1) ∧
    (EncodedAs (.not rA rB) (fieldAt rB 11 ||| fieldAt rA 7 ||| 0x0030#16) ∧
      ResultIn (.not rA rB) s rA (~~~ s.reg rB) 1)

/-- OR and BSWAP (40_logic.md R101, R107). The zero upper half of BSWAP is the spec's inference; that OR of
a register nothing has written runs is the model's choice (log entry 1). -/
def Obligations.OrBswapResults : Prop :=
  ∀ (s : State) (rA rB : Reg),
    (EncodedAs (.or rA rB) (fieldAt rB 11 ||| fieldAt rA 7 ||| 0x0000#16) ∧
      ResultIn (.or rA rB) s rA (s.reg rA ||| s.reg rB) 1) ∧
    (EncodedAs (.bswap rA rB) (fieldAt rB 11 ||| fieldAt rA 7 ||| 0x0060#16) ∧
      ResultIn (.bswap rA rB) s rA
        (BitVec.ofNat 32 ((s.reg rB).toNat % 256 * 256 + (s.reg rB).toNat / 256 % 256)) 1)

/-- BSL and BSR where every reading of the manual agrees: amount below 32 and, for BSR, bit 31 clear or
amount 0 (40_logic.md R105, R106; the spec's decision D12). -/
def Obligations.ShiftsInRangeResults : Prop :=
  ∀ (s : State) (rA rB : Reg), (s.reg rB).toNat < 32 →
    ResultIn (.bsl rA rB) s rA (BitVec.ofNat 32 ((s.reg rA).toNat * 2 ^ (s.reg rB).toNat)) 1 ∧
    ((s.reg rA).toNat < 2 ^ 31 ∨ s.reg rB = 0#32 →
      ResultIn (.bsr rA rB) s rA (BitVec.ofNat 32 ((s.reg rA).toNat / 2 ^ (s.reg rB).toNat)) 1)

/-- A shift by 32 or more runs and leaves any value (40_logic.md R105, R106, U14): the next free value,
whatever it is (log entry 10). -/
def Obligations.ShiftsOutOfRangeGiveFreeValue : Prop :=
  ∀ (s : State) (rA rB : Reg), 32 ≤ (s.reg rB).toNat →
    FreeResultIn (.bsl rA rB) s rA ∧ FreeResultIn (.bsr rA rB) s rA

/-- BSR of a value with bit 31 set by 1 to 31 places follows `BSR_FN` (40_logic.md R106; the spec's decision
D12): the logical shift, the arithmetic shift, or any function. -/
def Obligations.BsrFillFollowsConfiguration : Prop :=
  ∀ (s : State) (rA rB : Reg), 2 ^ 31 ≤ (s.reg rA).toNat → 0 < (s.reg rB).toNat → (s.reg rB).toNat < 32 →
    (s.cfg.bsrFn = .logical →
      ResultIn (.bsr rA rB) s rA (BitVec.ofNat 32 ((s.reg rA).toNat / 2 ^ (s.reg rB).toNat)) 1) ∧
    (s.cfg.bsrFn = .arithmetic →
      ResultIn (.bsr rA rB) s rA (BitVec.ofInt 32 ((s.reg rA).toInt / 2 ^ (s.reg rB).toNat)) 1) ∧
    (s.cfg.bsrFn = .other →
      ResultIn (.bsr rA rB) s rA (Config.bsrFn (s.reg rA) (s.reg rB)) 1)

/-! ### Integer math -/

/-- IADD, ISUB, IMUL, INC, DEC (42_math.md R131, R132, R133, R137, R138): the canonical word, for INC and DEC
the ignored rB field, the exact result reduced to its low 32 bits, pc + 2, and nothing else changed, no flag
among it. -/
def Obligations.AddSubMulIncDecResults : Prop :=
  ∀ (s : State) (rA rB : Reg),
    (EncodedAs (.iadd rA rB) (fieldAt rB 12 ||| fieldAt rA 8 ||| 0x0002#16) ∧
      ResultIn (.iadd rA rB) s rA (BitVec.ofNat 32 ((s.reg rA).toNat + (s.reg rB).toNat)) 1) ∧
    (EncodedAs (.isub rA rB) (fieldAt rB 12 ||| fieldAt rA 8 ||| 0x0012#16) ∧
      ResultIn (.isub rA rB) s rA (BitVec.ofInt 32 ((s.reg rA).toNat - (s.reg rB).toNat : Int)) 1) ∧
    (EncodedAs (.imul rA rB) (fieldAt rB 12 ||| fieldAt rA 8 ||| 0x0022#16) ∧
      ResultIn (.imul rA rB) s rA (BitVec.ofNat 32 ((s.reg rA).toNat * (s.reg rB).toNat)) 1) ∧
    (EncodedAs (.inc rA) (fieldAt rA 8 ||| 0x0062#16) ∧
      (∀ w w1 w2 : Half, w &&& 0x00FF#16 = 0x0062#16 → decodeWords w w1 w2 = .ok (.inc (w.extractLsb' 8 4))) ∧
      ResultIn (.inc rA) s rA (BitVec.ofNat 32 ((s.reg rA).toNat + 1)) 1) ∧
    (EncodedAs (.dec rA) (fieldAt rA 8 ||| 0x0072#16) ∧
      (∀ w w1 w2 : Half, w &&& 0x00FF#16 = 0x0072#16 → decodeWords w w1 w2 = .ok (.dec (w.extractLsb' 8 4))) ∧
      ResultIn (.dec rA) s rA (BitVec.ofInt 32 ((s.reg rA).toNat - 1 : Int)) 1)

/-- INEG (42_math.md R136; the spec's decision D10): `(0 - a) mod 2^32`. -/
def Obligations.InegResult : Prop :=
  ∀ (s : State) (rA : Reg),
    EncodedAs (.ineg rA) (fieldAt rA 8 ||| 0x0052#16) ∧
    ResultIn (.ineg rA) s rA (BitVec.ofInt 32 (-((s.reg rA).toNat : Int))) 1

/-- IDIV and IMOD where every reading agrees: both operands below 2^31 and the divisor not zero (42_math.md
R134, R135; the spec's decision D11). -/
def Obligations.DivModExactResults : Prop :=
  ∀ (s : State) (rA rB : Reg), (s.reg rA).toNat < 2 ^ 31 → (s.reg rB).toNat < 2 ^ 31 → s.reg rB ≠ 0#32 →
    ResultIn (.idiv rA rB) s rA (BitVec.ofNat 32 ((s.reg rA).toNat / (s.reg rB).toNat)) 1 ∧
    ResultIn (.imod rA rB) s rA (BitVec.ofNat 32 ((s.reg rA).toNat % (s.reg rB).toNat)) 1

/-- Division and modulo by zero neither trap nor stop (42_math.md R134, R135, U12): the result is the next
free value, whatever it is (log entry 10). -/
def Obligations.DivModByZeroGoOn : Prop :=
  ∀ (s : State) (rA rB : Reg), s.reg rB = 0#32 →
    FreeResultIn (.idiv rA rB) s rA ∧ FreeResultIn (.imod rA rB) s rA

/-- IDIV and IMOD with an operand at or above 2^31 follow `DIV_FN` and `MOD_FN` (42_math.md R134, R135, U13;
the spec's decision D11): unsigned; signed, truncating toward zero with the remainder taking the
dividend's sign; or any function. The signed quotient that is not representable is left to any function
(log entry 11). -/
def Obligations.DivModReadingsFollowConfiguration : Prop :=
  ∀ (s : State) (rA rB : Reg), s.reg rB ≠ 0#32 → (2 ^ 31 ≤ (s.reg rA).toNat ∨ 2 ^ 31 ≤ (s.reg rB).toNat) →
    (s.cfg.divFn = .unsigned →
      ResultIn (.idiv rA rB) s rA (BitVec.ofNat 32 ((s.reg rA).toNat / (s.reg rB).toNat)) 1) ∧
    (s.cfg.divFn = .signed → ¬ (s.reg rA = 0x80000000#32 ∧ s.reg rB = 0xFFFFFFFF#32) →
      ResultIn (.idiv rA rB) s rA (BitVec.ofInt 32 ((s.reg rA).toInt.tdiv (s.reg rB).toInt)) 1) ∧
    (s.cfg.divFn = .other ∨ (s.cfg.divFn = .signed ∧ s.reg rA = 0x80000000#32 ∧ s.reg rB = 0xFFFFFFFF#32) →
      ResultIn (.idiv rA rB) s rA (Config.divFn (s.reg rA) (s.reg rB)) 1) ∧
    (s.cfg.modFn = .unsigned →
      ResultIn (.imod rA rB) s rA (BitVec.ofNat 32 ((s.reg rA).toNat % (s.reg rB).toNat)) 1) ∧
    (s.cfg.modFn = .signed →
      ResultIn (.imod rA rB) s rA (BitVec.ofInt 32 ((s.reg rA).toInt.tmod (s.reg rB).toInt)) 1) ∧
    (s.cfg.modFn = .other →
      ResultIn (.imod rA rB) s rA (Config.modFn (s.reg rA) (s.reg rB)) 1)

/-! ### Branches, return, halt -/

/-- JMP in both modes (41_branch.md JMP): the canonical words; pc is the operand's 19 low bits, nothing else
changes; an odd target is accepted and the next fetch is U8 (the spec's decision D5). How many words the
register form has is the parameter BRANCH_REG_LEN (D8); that it is written with zeros in the two words after the
first, where it has three, is the model's reading (D6, log entry 17). -/
def Obligations.JmpResults : Prop :=
  ∀ (s : State) (rA : Reg) (address : Word),
    (∀ n, encode n (.jmpI address) = [0x8001#16, address.extractLsb' 16 16, address.extractLsb' 0 16]) ∧
    (∀ n, encode n (.jmpR rA) = (fieldAt rA 6 ||| 0x0001#16) :: regBranchTail n) ∧
    Completes (.jmpI address) s (fun t => GoesTo s t (lowTarget address) ∧
      (isOdd address = true → s.halted = false → step t = .fault .badFetch)) ∧
    Completes (.jmpR rA) s (fun t => GoesTo s t (lowTarget (s.reg rA)) ∧
      (isOdd (s.reg rA) = true → s.halted = false → step t = .fault .badFetch))

/-- JMPIF and JMPIFNOT in both modes (41_branch.md R114, R116, R117; the spec's decision D9): taken, not
taken, and U16 for a condition register that is neither 0 nor 1. -/
def Obligations.ConditionalJumpResults : Prop :=
  ∀ (s : State) (rA rB : Reg) (address : Word),
    JumpsOn (.jmpifR rA rB) s true (s.reg rB) (s.reg rA)
      (s.pc + BitVec.ofNat 32 (2 * s.cfg.branchRegLen.words)) ∧
    JumpsOn (.jmpifnotR rA rB) s false (s.reg rB) (s.reg rA)
      (s.pc + BitVec.ofNat 32 (2 * s.cfg.branchRegLen.words)) ∧
    JumpsOn (.jmpifI address rB) s true (s.reg rB) address (s.pc + 6#32) ∧
    JumpsOn (.jmpifnotI address rB) s false (s.reg rB) address (s.pc + 6#32)

/-- CALL in both modes (41_branch.md R118): the canonical words; the next instruction's address, all 32 bits
of it, is pushed and pc is the operand's 19 low bits; a full call stack is U17 (the spec's decision D17). The
length of the register form is the parameter BRANCH_REG_LEN (D8); that it is written with zeros in the two words
after the first, where it has three, is the model's reading (D6, log entry 17). -/
def Obligations.CallResults : Prop :=
  ∀ (s : State) (rA : Reg) (address : Word),
    (∀ n, encode n (.callI address) = [0xC001#16, address.extractLsb' 16 16, address.extractLsb' 0 16]) ∧
    (∀ n, encode n (.callR rA) = (fieldAt rA 6 ||| 0x4001#16) :: regBranchTail n) ∧
    Calls (.callI address) s address (s.pc + 6#32) ∧
    Calls (.callR rA) s (s.reg rA) (s.pc + BitVec.ofNat 32 (2 * s.cfg.branchRegLen.words))

/-- CALLIF and CALLIFNOT in both modes (41_branch.md R113, R114, R119, R120; the spec's decisions D9, D41):
taken, not taken with nothing pushed, U16, and U17 when taken with a full call stack. -/
def Obligations.ConditionalCallResults : Prop :=
  ∀ (s : State) (rA rB : Reg) (address : Word),
    CallsOn (.callifR rA rB) s true (s.reg rB) (s.reg rA)
      (s.pc + BitVec.ofNat 32 (2 * s.cfg.branchRegLen.words)) ∧
    CallsOn (.callifnotR rA rB) s false (s.reg rB) (s.reg rA)
      (s.pc + BitVec.ofNat 32 (2 * s.cfg.branchRegLen.words)) ∧
    CallsOn (.callifI address rB) s true (s.reg rB) address (s.pc + 6#32) ∧
    CallsOn (.callifnotI address rB) s false (s.reg rB) address (s.pc + 6#32)

/-- RET (44_ret_halt.md R161; the spec's decisions D17, D35): the newest entry, as it is, becomes pc; an empty
call stack is U17; bits 15:5 are ignored. -/
def Obligations.RetResults : Prop :=
  (∀ (s : State) (cs : List Word) (v : Word), s.callStack = cs ++ [v] →
    Completes .ret s fun t => t.pc = v ∧ t.callStack = cs ∧ KeepsAllBut [.callStack] s t) ∧
  (∀ s : State, s.callStack = [] → StopsWith .ret s .callStackEmpty) ∧
  (∀ w w1 w2 : Half, w &&& 0x001F#16 = 0x0004#16 → decodeWords w w1 w2 = .ok .ret)

/-- An instruction that grows the call stack is undone by RET (44_ret_halt.md RET): RET goes on at the address
after that instruction and leaves everything else as it was before it. -/
def Obligations.CallThenRetReturns : Prop :=
  ∀ (i : Instr) (s t : State), exec i s = .next t → s.callStack.length < t.callStack.length →
    Completes .ret t fun u =>
      u.pc = s.pc + BitVec.ofNat 32 (2 * i.words s.cfg.branchRegLen) ∧ KeepsAllBut [] s u

/-- HALT (44_ret_halt.md R162): HALTED is set and nothing else changes, pc stays, bits 15:5 are ignored; from
there no step changes anything of the CPU or of memory (the video output, an agent of its own, goes on), and the
reset signal leads out. -/
def Obligations.HaltStops : Prop :=
  (∀ w w1 w2 : Half, w &&& 0x001F#16 = 0x0014#16 → decodeWords w w1 w2 = .ok .halt) ∧
  ∀ s : State, EncodedAs .halt 0x0014#16 ∧
    Completes .halt s fun t => t.halted = true ∧ t.pc = s.pc ∧ KeepsAllBut [.halted] s t ∧
      (∀ u, Reaches t u → u.halted = true ∧ u.pc = t.pc ∧ KeepsAllBut [.video] t u) ∧ ∀ image, (t.resetSignal image).halted = false

/-! ### Memory -/

/-- The address map, by its inclusive bounds (20_memory.md table of the address map; 90_conflicts.md C11). -/
def Obligations.AddressMap : Prop :=
  ∀ a : Word,
    (region a = .sram ↔ a.toNat ≤ 0x0007FFFF) ∧
    (region a = .vram ↔ 0x80000000 ≤ a.toNat ∧ a.toNat ≤ 0x8000BFFF) ∧
    (region a = .dev ↔ 0x8000C000 ≤ a.toNat ∧ a.toNat ≤ 0x8000CFFF) ∧
    (region a = .absent ↔
      (0x00080000 ≤ a.toNat ∧ a.toNat ≤ 0x7FFFFFFF) ∨ (0x8000D000 ≤ a.toNat ∧ a.toNat ≤ 0xFFFFFFFF))

/-- ST.W (43_memory_access.md ST.W, 20_memory.md MemWrite; the spec's decision D2) at an even address in
SRAM: reads back as the low half of rB, and changes no other byte. -/
def Obligations.StoreWordResult : Prop :=
  ∀ (s : State) (rA rB : Reg), InSram (s.reg rA) 2 → isOdd (s.reg rA) = false →
    EncodedAs (.stW rA rB) (fieldAt rB 12 ||| fieldAt rA 8 ||| 0x0003#16) ∧
    Completes (.stW rA rB) s fun t => t.pc = s.pc + 2#32 ∧
      t.sramHalf (s.reg rA) = some ((s.reg rB).extractLsb' 0 16) ∧
      StoresOnlyTo s t (s.reg rA) 2 ∧ KeepsAllBut [.bytes, .stored] s t

/-- ST.B to SRAM (43_memory_access.md ST.B): any parity, the low byte of rB, and only that byte changes. -/
def Obligations.StoreByteToSram : Prop :=
  ∀ (s : State) (rA rB : Reg), InSram (s.reg rA) 1 →
    EncodedAs (.stB rA rB) (fieldAt rB 12 ||| fieldAt rA 8 ||| 0x0053#16) ∧
    Completes (.stB rA rB) s fun t => t.pc = s.pc + 2#32 ∧
      t.byteAt (.sram (s.reg rA).toNat) = some ((s.reg rB).extractLsb' 0 8) ∧
      StoresOnlyTo s t (s.reg rA) 1 ∧ KeepsAllBut [.bytes, .stored] s t

/-- ST.B to VRAM (20_memory.md VRAM, 43_memory_access.md ST.B): the byte of the frame buffer that is not
displayed; no other byte changes. Once a SPRITE has run the buffer's contents stay without a defined value
(the spec's decision D27, log entry 9). -/
def Obligations.StoreByteToVram : Prop :=
  ∀ (s : State) (rA rB : Reg) (o : Nat), s.Canonical → o < 0xC000 → (s.reg rA).toNat = 0x80000000 + o →
    Completes (.stB rA rB) s fun t => t.pc = s.pc + 2#32 ∧
      (s.fb (1#1 - s.displayFB) ≠ .drawn →
        t.byteAt (.frame (1#1 - s.displayFB) o) = some ((s.reg rB).extractLsb' 0 8)) ∧
      (s.fb (1#1 - s.displayFB) = .drawn → t.byteAt (.frame (1#1 - s.displayFB) o) = none) ∧
      (∀ p, p ≠ .frame (1#1 - s.displayFB) o → t.byteAt p = s.byteAt p) ∧
      t.Canonical ∧ KeepsAllBut [.bytes] s t

/-- ST.B to the device bytes (20_memory.md device control bytes; the spec's decisions D24, D39): BORDER
COLOR, VBSENABLE and VBLANKSERVICE take the byte, a non-zero VBSENABLE is U20, the UNUSED bytes take it
without effect. -/
def Obligations.StoreByteToDevice : Prop :=
  ∀ (s : State) (rA rB : Reg) (o : Nat), o < 0x1000 → (s.reg rA).toNat = 0x8000C000 + o →
    (o = 1 → (s.reg rB).extractLsb' 0 8 ≠ 0#8 → StopsWith (.stB rA rB) s .vblankService) ∧
    (¬ (o = 1 ∧ (s.reg rB).extractLsb' 0 8 ≠ 0#8) →
      Completes (.stB rA rB) s fun t => t.pc = s.pc + 2#32 ∧
        t.byteAt (.device o) =
          (if o ∈ [0, 1, 4, 5, 6, 7] then some ((s.reg rB).extractLsb' 0 8) else none) ∧
        (∀ p, p ≠ .device o → t.byteAt p = s.byteAt p) ∧ KeepsAllBut [.bytes] s t)

/-- The stops of every data access in the order U9, then U10 or U11, then U7, then U19 (60_exceptions.md
priority; the spec's decisions D4, D7, D22, D23; that a wide load from video memory is U11 is log entry 14,
that a byte nothing has written is U19 is log entry 7). -/
def Obligations.MemoryAccessStops : Prop :=
  ∀ (s : State) (rA rB : Reg),
    AccessStops (.stW rA rB) s (s.reg rA) 2 .wideVideoStore ∧
    (region (s.reg rA) = .absent → StopsWith (.stB rA rB) s .outsideMap) ∧
    LoadStops (.ldWMem rA rB) s (s.reg rB) 2 ∧
    LoadStops (.ldBMem rA rB) s (s.reg rB) 1 ∧
    LoadStops (.ldDMem rA rB) s (s.reg rB) 4 ∧
    AccessStops (.push rA) s s.sp s.cfg.stackSlotBytes.bytes .wideVideoStore ∧
    LoadStops (.pop rA) s (s.sp + BitVec.ofNat 32 s.cfg.stackSlotBytes.bytes) s.cfg.stackSlotBytes.bytes

/-- LD.B, LD.W and LD.D through a register (43_memory_access.md; the spec's decisions D2, D3 and its inference
about LD.D) from bytes of SRAM that hold a value, word and dword at an even address. -/
def Obligations.MemoryLoadResults : Prop :=
  ∀ (s : State) (rA rB : Reg),
    (∀ b, InSram (s.reg rB) 1 → s.byteAt (.sram (s.reg rB).toNat) = some b →
      ResultIn (.ldBMem rA rB) s rA (low8Result (s.reg rA) b) 1) ∧
    (∀ b0 b1, InSram (s.reg rB) 2 → isOdd (s.reg rB) = false →
      s.byteAt (.sram (s.reg rB).toNat) = some b0 → s.byteAt (.sram ((s.reg rB).toNat + 1)) = some b1 →
      ResultIn (.ldWMem rA rB) s rA
        (low16Result s.cfg.wordWriteUpper (s.reg rA) (joinHalf s.cfg.wordByteOrder b0 b1)) 1) ∧
    (∀ b0 b1 b2 b3, InSram (s.reg rB) 4 → isOdd (s.reg rB) = false →
      s.byteAt (.sram (s.reg rB).toNat) = some b0 → s.byteAt (.sram ((s.reg rB).toNat + 1)) = some b1 →
      s.byteAt (.sram ((s.reg rB).toNat + 2)) = some b2 → s.byteAt (.sram ((s.reg rB).toNat + 3)) = some b3 →
      ResultIn (.ldDMem rA rB) s rA
        (joinHalf s.cfg.wordByteOrder b0 b1 ++ joinHalf s.cfg.wordByteOrder b2 b3) 1)

/-- LD.D constant and LD.B constant (43_memory_access.md R145, R148): the canonical words and the ignored rB
field; the 32-bit constant in the whole register, pc + 6; the low byte of the constant word in the low byte of
the register, pc + 4. -/
def Obligations.ConstantLoadResults : Prop :=
  ∀ (s : State) (rA : Reg) (d : Word) (c : Half),
    ((∀ n, encode n (.ldDImm rA d) =
        [fieldAt rA 8 ||| 0x0043#16, d.extractLsb' 16 16, d.extractLsb' 0 16]) ∧
      (∀ w w1 w2 : Half, w &&& 0x00FF#16 = 0x0043#16 →
        decodeWords w w1 w2 = .ok (.ldDImm (w.extractLsb' 8 4) (w1 ++ w2))) ∧
      ResultIn (.ldDImm rA d) s rA d 3) ∧
    ((∀ n, encode n (.ldBImm rA c) = [fieldAt rA 8 ||| 0x0073#16, c]) ∧
      (∀ w w1 w2 : Half, w &&& 0x00FF#16 = 0x0073#16 →
        decodeWords w w1 w2 = .ok (.ldBImm (w.extractLsb' 8 4) w1)) ∧
      ResultIn (.ldBImm rA c) s rA (low8Result (s.reg rA) (c.extractLsb' 0 8)) 2)

/-- LD.W constant and CP.W (43_memory_access.md; the spec's decision D3): the low half of the register, and
its upper half as WORD_WRITE_UPPER says. -/
def Obligations.HalfMoveResults : Prop :=
  ∀ (s : State) (rA rB : Reg) (c : Half),
    ResultIn (.ldWImm rA c) s rA (low16Result s.cfg.wordWriteUpper (s.reg rA) c) 2 ∧
    ResultIn (.cpW rA rB) s rA
      (low16Result s.cfg.wordWriteUpper (s.reg rA) ((s.reg rB).extractLsb' 0 16)) 1

/-- A load sees the latest store (20_memory.md ordering; the spec's decision D20): LD.W after ST.W at the same
address reads the word stored; LD.B there reads the byte that the byte order puts at the even address
(20_memory.md byte order; the spec's decision D2). -/
def Obligations.LoadsSeeStoredWord : Prop :=
  ∀ (s t : State) (rA rB rC : Reg), exec (.stW rA rB) s = .next t →
    Completes (.ldWMem rC rA) t (fun u =>
      (u.reg rC).extractLsb' 0 16 = (s.reg rB).extractLsb' 0 16 ∧ KeepsAllBut [.regs, .bytes, .stored] s u) ∧
    Completes (.ldBMem rC rA) t (fun u => (u.reg rC).extractLsb' 0 8 =
      match s.cfg.wordByteOrder with
      | .big => (s.reg rB).extractLsb' 8 8
      | .little => (s.reg rB).extractLsb' 0 8)

/-! ### The stack -/

/-- PUSH (45_stack.md; the spec's decision D15): the register, or its low half with 2-byte slots, at SP; SP
falls by the slot size; no other byte changes. -/
def Obligations.PushResults : Prop :=
  ∀ (s : State) (rA : Reg), isOdd s.sp = false → InSram s.sp s.cfg.stackSlotBytes.bytes →
    Completes (.push rA) s fun t => t.pc = s.pc + 2#32 ∧
      t.sp = s.sp - BitVec.ofNat 32 s.cfg.stackSlotBytes.bytes ∧
      (s.cfg.stackSlotBytes = .four → t.sramWord s.sp = some (s.reg rA)) ∧
      (s.cfg.stackSlotBytes = .two → t.sramHalf s.sp = some ((s.reg rA).extractLsb' 0 16)) ∧
      StoresOnlyTo s t s.sp s.cfg.stackSlotBytes.bytes ∧ KeepsAllBut [.sp, .bytes, .stored] s t

/-- POP (45_stack.md; the spec's decisions D3, D15): SP rises by the slot size, then the register takes the
slot there. -/
def Obligations.PopResults : Prop :=
  (∀ (s : State) (rA : Reg) (v : Word), s.cfg.stackSlotBytes = .four → isOdd s.sp = false →
    InSram (s.sp + 4#32) 4 → s.sramWord (s.sp + 4#32) = some v →
    Completes (.pop rA) s fun t => WritesReg s t rA v 1 [.sp] ∧ t.sp = s.sp + 4#32) ∧
  (∀ (s : State) (rA : Reg) (v : Half), s.cfg.stackSlotBytes = .two → isOdd s.sp = false →
    InSram (s.sp + 2#32) 2 → s.sramHalf (s.sp + 2#32) = some v →
    Completes (.pop rA) s fun t =>
      WritesReg s t rA (low16Result s.cfg.wordWriteUpper (s.reg rA) v) 1 [.sp] ∧ t.sp = s.sp + 2#32)

/-- A POP right after a PUSH (45_stack.md; the spec's decision D15): SP is back, and the register popped holds
what was pushed, all of it with 4-byte slots, its low half with 2-byte slots. -/
def Obligations.PushThenPopRestores : Prop :=
  ∀ (s t : State) (rA rB : Reg), exec (.push rA) s = .next t →
    Completes (.pop rB) t fun u => u.sp = s.sp ∧
      (s.cfg.stackSlotBytes = .four → u.reg rB = s.reg rA) ∧
      (u.reg rB).extractLsb' 0 16 = (s.reg rA).extractLsb' 0 16 ∧
      (∀ r, r ≠ rB → u.reg r = s.reg r) ∧ KeepsAllBut [.regs, .bytes, .stored] s u

/-! ### Flags -/

/-- CMP (46_compare.md; the spec's decisions D1, D13, D14): each of the six flags, and nothing else. -/
def Obligations.CmpWritesEachFlag : Prop :=
  ∀ (s : State) (rA rB : Reg),
    EncodedAs (.cmp rA rB) (fieldAt rB 8 ||| fieldAt rA 4 ||| 0x0007#16) ∧
    Completes (.cmp rA rB) s fun t => t.pc = s.pc + 2#32 ∧
      (t.flag 0 = true ↔ s.reg rA = s.reg rB) ∧
      (t.flag 1 = true ↔ Ordered s.cfg.cmpSigned (s.reg rB) (s.reg rA)) ∧
      (t.flag 2 = true ↔ Ordered s.cfg.cmpSigned (s.reg rA) (s.reg rB)) ∧
      (t.flag 3 = true ↔ (if s.cfg.zeroFlagOperand = .rA then s.reg rA else s.reg rB) ≠ 0#32) ∧
      (t.flag 4 = true ↔ s.reg rA ≠ s.reg rB) ∧
      (t.flag 5 = true ↔ (if s.cfg.zeroFlagOperand = .rA then s.reg rA else s.reg rB) = 0#32) ∧
      KeepsAllBut [.flags] s t

/-- TEST (46_compare.md): 1 if a masked flag is set, else 0, in all 32 bits of the register; FLAGS keeps its
value. That TEST runs before any CMP is the model's choice (log entry 2). -/
def Obligations.TestResults : Prop :=
  ∀ (s : State) (rA : Reg) (mask : FlagBits),
    EncodedAs (.test rA mask) (fieldAt rA 10 ||| (mask.setWidth 16 <<< 4) ||| 0x0006#16) ∧
    ((∃ k, s.flag k = true ∧ mask.getLsbD k = true) → ResultIn (.test rA mask) s rA 1#32 1) ∧
    ((∀ k, ¬ (s.flag k = true ∧ mask.getLsbD k = true)) → ResultIn (.test rA mask) s rA 0#32 1)

/-- CMP then TEST computes the relations (46_compare.md TEST, corner cases; the spec's decision D13): equal,
notequal, less greater, greater, less, greater equal, less equal, the empty and the full mask. -/
def Obligations.CmpThenTestComputesRelations : Prop :=
  ∀ (s t : State) (rA rB rC : Reg), exec (.cmp rA rB) s = .next t →
    TestTells rC 0x01#6 t (s.reg rA = s.reg rB) ∧
    TestTells rC 0x10#6 t (s.reg rA ≠ s.reg rB) ∧
    TestTells rC 0x06#6 t (s.reg rA ≠ s.reg rB) ∧
    TestTells rC 0x02#6 t (Ordered s.cfg.cmpSigned (s.reg rB) (s.reg rA)) ∧
    TestTells rC 0x04#6 t (Ordered s.cfg.cmpSigned (s.reg rA) (s.reg rB)) ∧
    TestTells rC 0x03#6 t (¬ Ordered s.cfg.cmpSigned (s.reg rA) (s.reg rB)) ∧
    TestTells rC 0x05#6 t (¬ Ordered s.cfg.cmpSigned (s.reg rB) (s.reg rA)) ∧
    TestTells rC 0x00#6 t False ∧
    TestTells rC 0x3F#6 t True

/-- FLAGS is written only by CMP and read only by TEST (10_state.md Flags): every other instruction leaves it
alone and does the same whatever it holds; CMP does not read it. -/
def Obligations.FlagsOnlyCmpAndTest : Prop :=
  ∀ (i : Instr) (s : State) (f : FlagBits), (∀ rA mask, i ≠ .test rA mask) →
    ((∃ rA rB, i = .cmp rA rB) → exec i (s.setFlags f) = exec i s) ∧
    ((∀ rA rB, i ≠ .cmp rA rB) →
      (∀ t, exec i s = .next t → t.flags = s.flags) ∧
      exec i (s.setFlags f) = match exec i s with
        | .next t => .next (t.setFlags f)
        | .fault g => .fault g
        | .refused r => .refused r)

/-! ### What no instruction does -/

/-- SP is changed by PUSH and POP alone, and by exactly one slot (45_stack.md; the spec's inference and its
decision D15). -/
def Obligations.SpChangedOnlyByStackGroup : Prop :=
  ∀ (i : Instr) (s t : State), exec i s = .next t →
    ((∀ rA, i ≠ .push rA ∧ i ≠ .pop rA) → t.sp = s.sp) ∧
    ((∃ rA, i = .push rA) → t.sp + BitVec.ofNat 32 s.cfg.stackSlotBytes.bytes = s.sp) ∧
    ((∃ rA, i = .pop rA) → t.sp = s.sp + BitVec.ofNat 32 s.cfg.stackSlotBytes.bytes)

/-- The call stack is changed by the call forms and RET alone (10_state.md call-stack primitives; the spec's
decision D17): unchanged, one entry more, or, by RET, one entry fewer. -/
def Obligations.CallStackChangedOnlyByCallsAndRet : Prop :=
  ∀ (i : Instr) (s t : State), exec i s = .next t →
    t.callStack = s.callStack ∨
    (i = .ret ∧ ∃ v, s.callStack = t.callStack ++ [v]) ∨
    ((∃ rA rB a, i ∈ [Instr.callR rA, .callifR rA rB, .callifnotR rA rB, .callI a, .callifI a rB,
        .callifnotI a rB]) ∧
      t.callStack = s.callStack ++ [s.pc + BitVec.ofNat 32 (2 * i.words s.cfg.branchRegLen)])

/-- SRAM, and the record of stored bytes, change only by ST.W, ST.B and PUSH (20_memory.md, the instructions
that reach memory). -/
def Obligations.SramChangedOnlyByStores : Prop :=
  ∀ (i : Instr) (s t : State), exec i s = .next t →
    (∀ rA rB, i ≠ .stW rA rB ∧ i ≠ .stB rA rB ∧ i ≠ .push rA) →
    (∀ a, t.byteAt (.sram a) = s.byteAt (.sram a)) ∧ t.stored = s.stored

/-- The CPU cannot change the displayed frame buffer (47_io.md frame-buffer model): no instruction but SPRITE
changes a byte of it. FSEL itself changes no byte of either. -/
def Obligations.DisplayedBufferIsOutOfReach : Prop :=
  ∀ (i : Instr) (s t : State), exec i s = .next t → (∀ rA rB, i ≠ .sprite rA rB) →
    (∀ o, t.byteAt (.frame s.displayFB o) = s.byteAt (.frame s.displayFB o)) ∧
    (∀ rA, i = .fsel rA → ∀ p, t.byteAt p = s.byteAt p)

/-- The event history only grows, by at most one event an instruction; the count of free values drawn never goes
back, and rises by at most one an instruction; the configuration never changes (00_scope.md primitives; log
entries 5, 10, 19). -/
def Obligations.HistoryGrowsAndConfigurationStays : Prop :=
  ∀ (i : Instr) (s t : State), exec i s = .next t →
    t.cfg = s.cfg ∧ (t.draws = s.draws ∨ t.draws = s.draws + 1) ∧
    (t.events = s.events ∨ ∃ e, t.events = s.events ++ [e])

/-! ### IO -/

/-- VSYNC (47_io.md; the spec's decision D28): while the video output signals a vertical sync it goes on; while
it does not, the CPU holds at the instruction. Nothing else changes (log entry 12). -/
def Obligations.VsyncResults : Prop :=
  ∀ s : State,
    EncodedAs .vsync 0x0008#16 ∧
    (s.verticalSync = true →
      Completes .vsync s fun t => t.pc = s.pc + 2#32 ∧ t.vsyncWait = false ∧ KeepsAllBut [.vsync] s t) ∧
    (s.verticalSync = false →
      Completes .vsync s fun t => t.pc = s.pc ∧ t.vsyncWait = true ∧ KeepsAllBut [.vsync] s t)

/-- A VSYNC at pc completes at the video output's next vertical sync (47_io.md; the spec's decision D28: the
event recurs for ever; log entry 12): every step before it leaves the CPU holding at the instruction, the step
it falls on leads to pc + 2, and nothing but the wait and the video output's own steps is then different. -/
def Obligations.VsyncEventuallyCompletes : Prop :=
  ∀ s : State, s.halted = false → s.fetchInstr = .ok .vsync →
    ∃ k t, isSyncTick (s.videoTime + k) = true ∧
      (∀ j, j < k → isSyncTick (s.videoTime + j) = false ∧
        ∃ u, core.run (j + 1) s = .next u ∧ u.pc = s.pc ∧ u.vsyncWait = true ∧ KeepsAllBut [.vsync, .video] s u) ∧
      core.run (k + 1) s = .next t ∧ t.pc = s.pc + 2#32 ∧ t.vsyncWait = false ∧ KeepsAllBut [.vsync, .video] s t

/-- IN and OUT (47_io.md; the spec's decision D26): IN writes the next free value, whatever it is, and
records it with the port; OUT records the port and all 32 bits. -/
def Obligations.InOutResults : Prop :=
  ∀ (s : State) (rA : Reg) (port : Half),
    Completes (.input rA port) s (fun t =>
      WritesReg s t rA (Config.freeWord s.draws) 2 [.draws, .events] ∧ t.draws = s.draws + 1 ∧
      t.events = s.events ++ [.input port (Config.freeWord s.draws)]) ∧
    Completes (.output rA port) s (fun t => t.pc = s.pc + 4#32 ∧
      t.events = s.events ++ [.output port (s.reg rA)] ∧ KeepsAllBut [.events] s t)

/-- FSEL and CLF (47_io.md; the spec's decisions D25 and, for a buffer after a SPRITE, D27): FSEL selects by
bit 0 at once; CLF sets every byte of the buffer that is not displayed and no other byte. -/
def Obligations.FselClfResults : Prop :=
  ∀ (s : State) (rA : Reg),
    Completes (.fsel rA) s (fun t => t.pc = s.pc + 2#32 ∧
      t.displayFB = BitVec.ofNat 1 ((s.reg rA).toNat % 2) ∧
      t.events = s.events ++ [.frameSelect (BitVec.ofNat 1 ((s.reg rA).toNat % 2))] ∧
      KeepsAllBut [.displayFB, .events] s t) ∧
    Completes (.clf rA) s (fun t => t.pc = s.pc + 2#32 ∧
      (s.fb (1#1 - s.displayFB) ≠ .drawn → ∀ o, o < 0xC000 →
        t.byteAt (.frame (1#1 - s.displayFB) o) = some ((s.reg rA).extractLsb' 0 8)) ∧
      (s.fb (1#1 - s.displayFB) = .drawn → ∀ o, t.byteAt (.frame (1#1 - s.displayFB) o) = none) ∧
      (∀ p, (∀ o, p ≠ .frame (1#1 - s.displayFB) o) → t.byteAt p = s.byteAt p) ∧
      KeepsAllBut [.bytes] s t)

/-- SPRITESHEET (47_io.md R190): the canonical word and the ignored rB field; the pointer is recorded, nothing
else changes, and it stays in force until the next SPRITESHEET. -/
def Obligations.SpritesheetResult : Prop :=
  (∀ (s : State) (rA : Reg),
    EncodedAs (.spritesheet rA) (fieldAt rA 7 ||| 0x0068#16) ∧
    Completes (.spritesheet rA) s fun t => t.pc = s.pc + 2#32 ∧ t.spriteSheetPtr = s.reg rA ∧
      t.spriteTablePtr = s.spriteTablePtr ∧ t.spriteCount = s.spriteCount ∧ KeepsAllBut [.sprites] s t) ∧
  (∀ w w1 w2 : Half, w &&& 0x007F#16 = 0x0068#16 →
    decodeWords w w1 w2 = .ok (.spritesheet (w.extractLsb' 7 4))) ∧
  (∀ (i : Instr) (s t : State), exec i s = .next t → (∀ rA, i ≠ .spritesheet rA) →
    t.spriteSheetPtr = s.spriteSheetPtr)

/-- SPRITE (47_io.md; the spec's decision D27): table and count are recorded, the kick is an event, SRAM and
the device bytes do not change, and both frame buffers hold no defined value from then on, whatever
instructions follow (log entry 9). -/
def Obligations.SpriteResults : Prop :=
  ∀ (s : State) (rA rB : Reg),
    Completes (.sprite rA rB) s fun t => t.pc = s.pc + 2#32 ∧
      t.spriteTablePtr = s.reg rA ∧ t.spriteCount = s.reg rB ∧ t.spriteSheetPtr = s.spriteSheetPtr ∧
      t.events = s.events ++ [.spriteKick (s.reg rA) (s.reg rB) s.spriteSheetPtr] ∧
      (∀ p, (∀ k o, p ≠ .frame k o) → t.byteAt p = s.byteAt p) ∧
      KeepsAllBut [.sprites, .events, .bytes] s t ∧
      ∀ u, Reaches t u → ∀ k o, u.byteAt (.frame k o) = none

/-! ### Encoding -/

/-- DECODE AND ENCODE AGREE (30_encoding.md, formats and how to encode): in either byte order, with either
length of the register-mode branches, and whatever follows, the bytes of every instruction decode to it. -/
def Obligations.DecodeEncode : Prop :=
  ∀ (order : ByteOrder) (n : RegBranchLen) (i : Instr) (rest : List Byte),
    decode order n (encodeBytes order n i ++ rest) = .ok (i, rest)

/-- The reserved encodings and no others are refused, each by its name (30_encoding.md reserved encodings;
the spec's decision D7). -/
def Obligations.ReservedWordsRefused : Prop :=
  ∀ w w1 w2 : Half,
    (decodeWords w w1 w2 = .error .reservedLogic ↔ w.toNat % 16 = 0 ∧ w.toNat / 16 % 8 = 7) ∧
    (decodeWords w w1 w2 = .error .reservedBranch ↔ w.toNat % 16 = 1 ∧ w.toNat / 16 % 4 = 2) ∧
    (decodeWords w w1 w2 = .error .reservedMath ↔ w.toNat % 16 = 2 ∧ 8 ≤ w.toNat / 16 % 16) ∧
    (decodeWords w w1 w2 = .error .reservedMov ↔ w.toNat % 16 = 3 ∧ 9 ≤ w.toNat / 16 % 16) ∧
    (decodeWords w w1 w2 = .error .reservedIo ↔ w.toNat % 16 = 8 ∧ w.toNat / 16 % 8 = 7) ∧
    (decodeWords w w1 w2 = .error .unusedBase ↔ 9 ≤ w.toNat % 16) ∧
    decodeWords w w1 w2 ≠ .error .truncated

/-- Executing a reserved encoding stops by its name (30_encoding.md reserved encodings; the spec's decision
D7). -/
def Obligations.ReservedWordsStopTheStep : Prop :=
  ∀ (s : State) (w : Half), s.halted = false → s.fetch16 s.pc = .ok w →
    (w.toNat % 16 = 0 ∧ w.toNat / 16 % 8 = 7 → step s = .fault .reservedLogic) ∧
    (w.toNat % 16 = 1 ∧ w.toNat / 16 % 4 = 2 → step s = .fault .reservedBranch) ∧
    (w.toNat % 16 = 2 ∧ 8 ≤ w.toNat / 16 % 16 → step s = .fault .reservedMath) ∧
    (w.toNat % 16 = 3 ∧ 9 ≤ w.toNat / 16 % 16 → step s = .fault .reservedMov) ∧
    (w.toNat % 16 = 8 ∧ w.toNat / 16 % 8 = 7 → step s = .fault .reservedIo) ∧
    (9 ≤ w.toNat % 16 → step s = .fault .unusedBase)

/-- Every row of the opcode table selects by its mask and match alone, with the fields where the table has
them and the ignored bits ignored (30_encoding.md opcode map; the spec's decision D6). -/
def Obligations.OpcodeRowsSelect : Prop :=
  ∀ w w1 w2 : Half,
    (w &&& 0x007F#16 = 0x0000#16 → decodeWords w w1 w2 = .ok (.or (w.extractLsb' 7 4) (w.extractLsb' 11 4))) ∧
    (w &&& 0x007F#16 = 0x0010#16 → decodeWords w w1 w2 = .ok (.and (w.extractLsb' 7 4) (w.extractLsb' 11 4))) ∧
    (w &&& 0x007F#16 = 0x0020#16 → decodeWords w w1 w2 = .ok (.xor (w.extractLsb' 7 4) (w.extractLsb' 11 4))) ∧
    (w &&& 0x007F#16 = 0x0030#16 → decodeWords w w1 w2 = .ok (.not (w.extractLsb' 7 4) (w.extractLsb' 11 4))) ∧
    (w &&& 0x007F#16 = 0x0040#16 → decodeWords w w1 w2 = .ok (.bsl (w.extractLsb' 7 4) (w.extractLsb' 11 4))) ∧
    (w &&& 0x007F#16 = 0x0050#16 → decodeWords w w1 w2 = .ok (.bsr (w.extractLsb' 7 4) (w.extractLsb' 11 4))) ∧
    (w &&& 0x007F#16 = 0x0060#16 → decodeWords w w1 w2 = .ok (.bswap (w.extractLsb' 7 4) (w.extractLsb' 11 4))) ∧
    (w &&& 0xC03F#16 = 0x0001#16 → decodeWords w w1 w2 = .ok (.jmpR (w.extractLsb' 6 4))) ∧
    (w &&& 0xC03F#16 = 0x0011#16 → decodeWords w w1 w2 = .ok (.jmpifR (w.extractLsb' 6 4) (w.extractLsb' 10 4))) ∧
    (w &&& 0xC03F#16 = 0x0031#16 → decodeWords w w1 w2 = .ok (.jmpifnotR (w.extractLsb' 6 4) (w.extractLsb' 10 4))) ∧
    (w &&& 0xC03F#16 = 0x4001#16 → decodeWords w w1 w2 = .ok (.callR (w.extractLsb' 6 4))) ∧
    (w &&& 0xC03F#16 = 0x4011#16 → decodeWords w w1 w2 = .ok (.callifR (w.extractLsb' 6 4) (w.extractLsb' 10 4))) ∧
    (w &&& 0xC03F#16 = 0x4031#16 → decodeWords w w1 w2 = .ok (.callifnotR (w.extractLsb' 6 4) (w.extractLsb' 10 4))) ∧
    (w &&& 0xC03F#16 = 0x8001#16 → decodeWords w w1 w2 = .ok (.jmpI (w1 ++ w2))) ∧
    (w &&& 0xC03F#16 = 0x8011#16 → decodeWords w w1 w2 = .ok (.jmpifI (w1 ++ w2) (w.extractLsb' 10 4))) ∧
    (w &&& 0xC03F#16 = 0x8031#16 → decodeWords w w1 w2 = .ok (.jmpifnotI (w1 ++ w2) (w.extractLsb' 10 4))) ∧
    (w &&& 0xC03F#16 = 0xC001#16 → decodeWords w w1 w2 = .ok (.callI (w1 ++ w2))) ∧
    (w &&& 0xC03F#16 = 0xC011#16 → decodeWords w w1 w2 = .ok (.callifI (w1 ++ w2) (w.extractLsb' 10 4))) ∧
    (w &&& 0xC03F#16 = 0xC031#16 → decodeWords w w1 w2 = .ok (.callifnotI (w1 ++ w2) (w.extractLsb' 10 4))) ∧
    (w &&& 0x00FF#16 = 0x0002#16 → decodeWords w w1 w2 = .ok (.iadd (w.extractLsb' 8 4) (w.extractLsb' 12 4))) ∧
    (w &&& 0x00FF#16 = 0x0012#16 → decodeWords w w1 w2 = .ok (.isub (w.extractLsb' 8 4) (w.extractLsb' 12 4))) ∧
    (w &&& 0x00FF#16 = 0x0022#16 → decodeWords w w1 w2 = .ok (.imul (w.extractLsb' 8 4) (w.extractLsb' 12 4))) ∧
    (w &&& 0x00FF#16 = 0x0032#16 → decodeWords w w1 w2 = .ok (.idiv (w.extractLsb' 8 4) (w.extractLsb' 12 4))) ∧
    (w &&& 0x00FF#16 = 0x0042#16 → decodeWords w w1 w2 = .ok (.imod (w.extractLsb' 8 4) (w.extractLsb' 12 4))) ∧
    (w &&& 0x00FF#16 = 0x0052#16 → decodeWords w w1 w2 = .ok (.ineg (w.extractLsb' 8 4))) ∧
    (w &&& 0x00FF#16 = 0x0062#16 → decodeWords w w1 w2 = .ok (.inc (w.extractLsb' 8 4))) ∧
    (w &&& 0x00FF#16 = 0x0072#16 → decodeWords w w1 w2 = .ok (.dec (w.extractLsb' 8 4))) ∧
    (w &&& 0x00FF#16 = 0x0003#16 → decodeWords w w1 w2 = .ok (.stW (w.extractLsb' 8 4) (w.extractLsb' 12 4))) ∧
    (w &&& 0x00FF#16 = 0x0013#16 → decodeWords w w1 w2 = .ok (.ldWMem (w.extractLsb' 8 4) (w.extractLsb' 12 4))) ∧
    (w &&& 0x00FF#16 = 0x0023#16 → decodeWords w w1 w2 = .ok (.cpW (w.extractLsb' 8 4) (w.extractLsb' 12 4))) ∧
    (w &&& 0x00FF#16 = 0x0033#16 → decodeWords w w1 w2 = .ok (.ldWImm (w.extractLsb' 8 4) w1)) ∧
    (w &&& 0x00FF#16 = 0x0043#16 → decodeWords w w1 w2 = .ok (.ldDImm (w.extractLsb' 8 4) (w1 ++ w2))) ∧
    (w &&& 0x00FF#16 = 0x0053#16 → decodeWords w w1 w2 = .ok (.stB (w.extractLsb' 8 4) (w.extractLsb' 12 4))) ∧
    (w &&& 0x00FF#16 = 0x0063#16 → decodeWords w w1 w2 = .ok (.ldBMem (w.extractLsb' 8 4) (w.extractLsb' 12 4))) ∧
    (w &&& 0x00FF#16 = 0x0073#16 → decodeWords w w1 w2 = .ok (.ldBImm (w.extractLsb' 8 4) w1)) ∧
    (w &&& 0x00FF#16 = 0x0083#16 → decodeWords w w1 w2 = .ok (.ldDMem (w.extractLsb' 8 4) (w.extractLsb' 12 4))) ∧
    (w &&& 0x001F#16 = 0x0004#16 → decodeWords w w1 w2 = .ok .ret) ∧
    (w &&& 0x001F#16 = 0x0014#16 → decodeWords w w1 w2 = .ok .halt) ∧
    (w &&& 0x001F#16 = 0x0005#16 → decodeWords w w1 w2 = .ok (.push (w.extractLsb' 5 4))) ∧
    (w &&& 0x001F#16 = 0x0015#16 → decodeWords w w1 w2 = .ok (.pop (w.extractLsb' 5 4))) ∧
    (w &&& 0x000F#16 = 0x0006#16 → decodeWords w w1 w2 = .ok (.test (w.extractLsb' 10 4) (w.extractLsb' 4 6))) ∧
    (w &&& 0x000F#16 = 0x0007#16 → decodeWords w w1 w2 = .ok (.cmp (w.extractLsb' 4 4) (w.extractLsb' 8 4))) ∧
    (w &&& 0x007F#16 = 0x0008#16 → decodeWords w w1 w2 = .ok .vsync) ∧
    (w &&& 0x007F#16 = 0x0018#16 → decodeWords w w1 w2 = .ok (.input (w.extractLsb' 7 4) w1)) ∧
    (w &&& 0x007F#16 = 0x0028#16 → decodeWords w w1 w2 = .ok (.output (w.extractLsb' 7 4) w1)) ∧
    (w &&& 0x007F#16 = 0x0038#16 → decodeWords w w1 w2 = .ok (.fsel (w.extractLsb' 7 4))) ∧
    (w &&& 0x007F#16 = 0x0048#16 → decodeWords w w1 w2 = .ok (.clf (w.extractLsb' 7 4))) ∧
    (w &&& 0x007F#16 = 0x0058#16 → decodeWords w w1 w2 = .ok (.sprite (w.extractLsb' 7 4) (w.extractLsb' 11 4))) ∧
    (w &&& 0x007F#16 = 0x0068#16 → decodeWords w w1 w2 = .ok (.spritesheet (w.extractLsb' 7 4)))

/-- A few words written out from the encodings decode to what they stand for (95_test_vectors.md). -/
def Obligations.SampleWordsDecode : Prop :=
  decodeWords 0x1080#16 0 0 = .ok (.or 1 2) ∧
  decodeWords 0x8411#16 0 0x0020#16 = .ok (.jmpifI 0x20#32 1) ∧
  decodeWords 0x44F1#16 0 0 = .ok (.callifnotR 3 1) ∧
  decodeWords 0x2132#16 0 0 = .ok (.idiv 1 2) ∧
  decodeWords 0x0143#16 0x8000#16 0 = .ok (.ldDImm 1 0x80000000#32) ∧
  decodeWords 0x4553#16 0 0 = .ok (.stB 5 4) ∧
  decodeWords 0xFFE4#16 0 0 = .ok .ret ∧
  decodeWords 0x01F5#16 0 0 = .ok (.pop 15) ∧
  decodeWords 0x0836#16 0 0 = .ok (.test 2 0x03#6) ∧
  decodeWords 0x0EF7#16 0 0 = .ok (.cmp 15 14) ∧
  decodeWords 0x0098#16 0x0010#16 0 = .ok (.input 1 0x10#16)

/-! ### Fetch and step -/

/-- A STEP RUNS THE DECODED INSTRUCTION (20_memory.md instruction fetch): where the bytes at pc, which a fetch
can read, decode to `i` and are just its bytes, a step of a machine that is not halted is the meaning of
`i`, with one step of the video output beside it where `i` answers a next state: that the video output takes
exactly one step beside each of the CPU is the model's choice (log entry 12; 60_exceptions.md multiprocessing).
Every instruction is well formed by its type. -/
def Obligations.StepRunsDecodedInstruction : Prop :=
  ∀ (s : State) (i : Instr) (bytes : List Byte), s.halted = false → s.HoldsCode bytes →
    decode s.cfg.wordByteOrder s.cfg.branchRegLen bytes = .ok (i, []) →
      step s = match exec i s with
        | .next t => .next t.videoStep
        | .fault f => .fault f
        | .refused r => .refused r

/-- A step runs the instruction whose encoding stands at pc, for every instruction (20_memory.md instruction fetch,
30_encoding.md how to encode), with one step of the video output beside it: that it is exactly one is the
model's choice (log entry 12; 60_exceptions.md multiprocessing). The words after the first of a three-word
register form are zeros by the model's reading (log entry 17). -/
def Obligations.StepRunsEncodedInstruction : Prop :=
  ∀ (s : State) (i : Instr), s.halted = false →
    s.HoldsCode (encodeBytes s.cfg.wordByteOrder s.cfg.branchRegLen i) → step s = withVideo (exec i s)

/-- The stops of a fetch in the order U8, U21, U19 (20_memory.md instruction fetch, 60_exceptions.md priority;
the spec's decisions D5, D21, D30; log entries 7 and 13), and the step they stop: at the first word, and, for an
instruction of two or three words, at the first of its extra words that cannot be fetched. -/
def Obligations.FetchStops : Prop :=
  ∀ (s : State) (a : Word),
    (isOdd a = true ∨ ¬ InSram a 2 → s.fetch16 a = .error .badFetch) ∧
    (isOdd a = false → InSram a 2 → s.cfg.storedFetch = .fault →
      a.toNat ∈ s.stored ∨ a.toNat + 1 ∈ s.stored → s.fetch16 a = .error .storedCode) ∧
    (isOdd a = false → InSram a 2 →
      s.cfg.storedFetch = .latest ∨ (a.toNat ∉ s.stored ∧ a.toNat + 1 ∉ s.stored) →
      s.byteAt (.sram a.toNat) = none ∨ s.byteAt (.sram (a.toNat + 1)) = none →
      s.fetch16 a = .error .noValue) ∧
    (∀ f, s.halted = false → s.fetch16 s.pc = .error f → step s = .fault f) ∧
    (∀ w w1 w2 i k f, s.halted = false → s.fetch16 s.pc = .ok w → decodeWords w w1 w2 = .ok i →
      1 ≤ k → k < i.words s.cfg.branchRegLen →
      (∀ j, 1 ≤ j → j < k → ∃ v, s.fetch16 (s.pc + BitVec.ofNat 32 (2 * j)) = .ok v) →
      s.fetch16 (s.pc + BitVec.ofNat 32 (2 * k)) = .error f → step s = .fault f)

/-- A fetch of a word that ST.W has just stored (20_memory.md instruction-fetch coherence; the spec's decision
D21): U21, or the word stored where the configuration takes the relaxation D21 allows (log entry 13). -/
def Obligations.FetchAfterStore : Prop :=
  ∀ (s t : State) (rA rB : Reg), exec (.stW rA rB) s = .next t →
    (s.cfg.storedFetch = .fault → t.fetch16 (s.reg rA) = .error .storedCode) ∧
    (s.cfg.storedFetch = .latest → t.fetch16 (s.reg rA) = .ok ((s.reg rB).extractLsb' 0 16))

/-! ### Reset and the invariant -/

/-- What reset leaves (10_state.md reset values; 70_reset_and_hazards.md; the spec's decisions D16, D17, D18,
D24, D25, D36): IP, SP, CS, HALTED, VBSENABLE, DISPLAYFB where the parameter names a value, no event, no frame
buffer byte with a value, and in SRAM the image alone: every byte of it that is in SRAM, the last one where the
image names an address twice (log entry 25), and no other; that a byte the image has outside SRAM is left out
is the model's choice (log entry 26). -/
def Obligations.ResetState : Prop :=
  ∀ (cfg : NekoConfig) (s : State),
    (State.resetWith cfg).pc = 0#32 ∧ (State.resetWith cfg).sp = cfg.spReset ∧
    (State.resetWith cfg).callStack = [] ∧ (State.resetWith cfg).halted = false ∧
    (State.resetWith cfg).byteAt (.device 1) = some 0#8 ∧
    (∀ k, cfg.displayFBReset = some k → (State.resetWith cfg).displayFB = k) ∧
    (State.resetWith cfg).events = [] ∧ (State.resetWith cfg).vsyncWait = false ∧
    (∀ k o, (State.resetWith cfg).byteAt (.frame k o) = none) ∧
    (∀ a, (State.resetWith cfg).byteAt (.sram a) = none) ∧
    (∀ image a, (∀ c ∈ image, c.1 ≠ a) → (State.coldStart cfg image).byteAt (.sram a) = none) ∧
    (∀ earlier later a b, a < sramSize → (∀ c ∈ later, c.1 ≠ a) →
      (State.coldStart cfg (earlier ++ (a, b) :: later)).byteAt (.sram a) = some b) ∧
    (∀ image a, sramSize ≤ a → (State.coldStart cfg image).byteAt (.sram a) = none) ∧
    ∀ image, s.resetSignal image = State.coldStart s.cfg image

/-- The invariant holds at a cold start, with any admitted configuration and any image. -/
def Obligations.ResetHasInvariant : Prop :=
  ∀ (cfg : NekoConfig) (image : List Host.Cell), cfg.wf = true → (State.coldStart cfg image).Inv

/-- THE INVARIANT IS KEPT BY EVERY STEP: memory in canonical form, every stored byte holding a value, the call
stack within CALLSTACK_DEPTH and holding only even addresses of at most 0x00080000, pc at most 0x00080000,
SP even, VBSENABLE 0 (44_ret_halt.md RET; 10_state.md; 20_memory.md; 60_exceptions.md). -/
def Obligations.StepKeepsInvariant : Prop :=
  ∀ s t : State, s.Inv → step s = .next t → t.Inv

/-! ### The assembler -/

/-- NOOP and LEA (30_encoding.md pseudo-instruction NOOP, intrinsic LEA): `noop` is `or r0, r0`, the word 0x0000,
length 1, and running it changes nothing but pc (40_logic.md OR; the spec's decision D19; that it runs in every
state, r0 never written included, is the model's choice, log entries 1 and 21; its completion is stated for OR
with both operands r0 only); `lea rA, LABEL` is `ld.d rA, <address of LABEL>`, three words, one register, the
manual's example among it. -/
def Obligations.NoopAndLeaAliases : Prop :=
  (∀ (look : Label → Option Nat) (s : State),
    assembleInstr look .noop [] = .ok (.or 0 0) ∧ assembleInstr look .or [.reg 0, .reg 0] = .ok (.or 0 0) ∧
    EncodedAs (.or 0 0) 0x0000#16 ∧ (∀ n, (Instr.or 0 0).words n = 1) ∧
    Completes (.or 0 0) s fun t => t.pc = s.pc + 2#32 ∧ KeepsAllBut [] s t) ∧
  (∀ (look : Label → Option Nat) (n v : Nat) (l : Label), n < 16 → v < 2 ^ 32 → look l = some v →
    assembleInstr look .lea [.reg n, .label l] =
      .ok (.ldDImm (BitVec.ofNat 4 n) (BitVec.ofNat 32 v)) ∧
    assembleInstr look .lea [.reg n, .label l] = assembleInstr look .ldD [.reg n, .const v]) ∧
  (∀ n, (Instr.ldDImm 7 0x300#32).words n = 3 ∧
    encode n (.ldDImm 7 0x300#32) = [0x0743#16, 0x0000#16, 0x0300#16])

/-- The assembler takes the well-formed and refuses everything else (30_encoding.md operand spellings, assembler
source, spellings to reject): an instruction is taken exactly if its shape has an encoding, its registers and
constants are in range, and each label IN IT has a value of as many bits as the form has room for; the second
pass takes a placed source exactly if each instruction of it is so with the first pass's labels; and a source
with one ill-formed statement, a directive or an instruction, is refused as a whole. That a label too wide for
its form is refused is the model's choice (log entry 25). -/
def Obligations.AssemblerTakesWellFormedOnly : Prop :=
  (∀ (look : Label → Option Nat) (m : Mnemonic) (ops : List Operand),
    (∃ i, assembleInstr look m ops = .ok i) ↔ Assembles look m ops) ∧
  (∀ (cfg : NekoConfig) (table : LabelTable) (placed : List (Nat × Statement)),
    (∃ image, emitStatements cfg table placed = .ok image) ↔
      ∀ a m ops, (a, Statement.ins m ops) ∈ placed → Assembles (fun l => table.lookup l) m ops) ∧
  ∀ (cfg : NekoConfig) (source : List Statement) (st : Statement), st ∈ source → st.wf = false →
    assemble cfg source = .error .illFormed

/-! ### The other agents -/

/-- The other agents have steps of their own and leave the CPU and SRAM alone (60_exceptions.md, multiprocessing):
with every step of the machine, halted or not, the video output takes one, which changes the course of no
instruction but VSYNC; the sprite unit's step reaches the frame buffers alone; the device that answers an IN leaves only its answer in
the event history and the count of free values. The model's choices and readings in this: that one step of the
video output goes with one of the CPU (log entry 12), that the sprite unit's step at the kick stands for all of
its later ones (log entry 9), and that a device's answer is the next free value (log entry 10). -/
def Obligations.OtherAgentsLeaveTheCpuAlone : Prop :=
  ∀ s : State,
    (∀ i, i ≠ .vsync → exec i s.videoStep = withVideo (exec i s)) ∧
    (∀ t, step s = .next t → t.videoTime = s.videoTime + 1) ∧
    (s.halted = true → step s = .next s.videoStep) ∧
    (s.videoStep.pc = s.pc ∧ KeepsAllBut [.video] s s.videoStep) ∧
    (s.spriteStep.pc = s.pc ∧ KeepsAllBut [.bytes] s s.spriteStep ∧
      ∀ p, (∀ k o, p ≠ .frame k o) → s.spriteStep.byteAt p = s.byteAt p) ∧
    ∀ port, (s.deviceStep port).2.pc = s.pc ∧
      (s.deviceStep port).2.events = s.events ++ [.input port (s.deviceStep port).1] ∧
      KeepsAllBut [.draws, .events] s (s.deviceStep port).2
end

