-- ==== Sys2Proof/Laws/State.lean ====
section
/-! SUPPORT. One lemma per field of `State` per named update, each true by unfolding the update once, and the
same for the accessors of registers, frame buffers and single bytes. -/

namespace Sys2Proof.Machine

section

variable (s : State)

/-! ### `setReg` -/

@[simp] theorem State.setReg_cfg (i : Reg) (v : Word) : (s.setReg i v).cfg = s.cfg := rfl
@[simp] theorem State.setReg_regs (i : Reg) (v : Word) : (s.setReg i v).regs = s.regs.set i.toNat v i.isLt := rfl
@[simp] theorem State.setReg_pc (i : Reg) (v : Word) : (s.setReg i v).pc = s.pc := rfl
@[simp] theorem State.setReg_sp (i : Reg) (v : Word) : (s.setReg i v).sp = s.sp := rfl
@[simp] theorem State.setReg_flags (i : Reg) (v : Word) : (s.setReg i v).flags = s.flags := rfl
@[simp] theorem State.setReg_callStack (i : Reg) (v : Word) : (s.setReg i v).callStack = s.callStack := rfl
@[simp] theorem State.setReg_sram (i : Reg) (v : Word) : (s.setReg i v).sram = s.sram := rfl
@[simp] theorem State.setReg_stored (i : Reg) (v : Word) : (s.setReg i v).stored = s.stored := rfl
@[simp] theorem State.setReg_fb0 (i : Reg) (v : Word) : (s.setReg i v).fb0 = s.fb0 := rfl
@[simp] theorem State.setReg_fb1 (i : Reg) (v : Word) : (s.setReg i v).fb1 = s.fb1 := rfl
@[simp] theorem State.setReg_displayFB (i : Reg) (v : Word) : (s.setReg i v).displayFB = s.displayFB := rfl
@[simp] theorem State.setReg_borderColor (i : Reg) (v : Word) : (s.setReg i v).borderColor = s.borderColor := rfl
@[simp] theorem State.setReg_vbsEnable (i : Reg) (v : Word) : (s.setReg i v).vbsEnable = s.vbsEnable := rfl
@[simp] theorem State.setReg_vblankService (i : Reg) (v : Word) : (s.setReg i v).vblankService = s.vblankService := rfl
@[simp] theorem State.setReg_spriteSheetPtr (i : Reg) (v : Word) : (s.setReg i v).spriteSheetPtr = s.spriteSheetPtr := rfl
@[simp] theorem State.setReg_spriteTablePtr (i : Reg) (v : Word) : (s.setReg i v).spriteTablePtr = s.spriteTablePtr := rfl
@[simp] theorem State.setReg_spriteCount (i : Reg) (v : Word) : (s.setReg i v).spriteCount = s.spriteCount := rfl
@[simp] theorem State.setReg_halted (i : Reg) (v : Word) : (s.setReg i v).halted = s.halted := rfl
@[simp] theorem State.setReg_vsyncWait (i : Reg) (v : Word) : (s.setReg i v).vsyncWait = s.vsyncWait := rfl
@[simp] theorem State.setReg_videoTime (i : Reg) (v : Word) : (s.setReg i v).videoTime = s.videoTime := rfl
@[simp] theorem State.setReg_events (i : Reg) (v : Word) : (s.setReg i v).events = s.events := rfl
@[simp] theorem State.setReg_draws (i : Reg) (v : Word) : (s.setReg i v).draws = s.draws := rfl
@[simp] theorem State.setReg_fb (i : Reg) (v : Word) (j : BitVec 1) : (s.setReg i v).fb j = s.fb j := rfl
@[simp] theorem State.setReg_byteAt (i : Reg) (v : Word) (p : Place) : (s.setReg i v).byteAt p = s.byteAt p := by
  cases p <;> rfl

/-! ### `setPc` -/

@[simp] theorem State.setPc_cfg (v : Word) : (s.setPc v).cfg = s.cfg := rfl
@[simp] theorem State.setPc_regs (v : Word) : (s.setPc v).regs = s.regs := rfl
@[simp] theorem State.setPc_pc (v : Word) : (s.setPc v).pc = v := rfl
@[simp] theorem State.setPc_sp (v : Word) : (s.setPc v).sp = s.sp := rfl
@[simp] theorem State.setPc_flags (v : Word) : (s.setPc v).flags = s.flags := rfl
@[simp] theorem State.setPc_callStack (v : Word) : (s.setPc v).callStack = s.callStack := rfl
@[simp] theorem State.setPc_sram (v : Word) : (s.setPc v).sram = s.sram := rfl
@[simp] theorem State.setPc_stored (v : Word) : (s.setPc v).stored = s.stored := rfl
@[simp] theorem State.setPc_fb0 (v : Word) : (s.setPc v).fb0 = s.fb0 := rfl
@[simp] theorem State.setPc_fb1 (v : Word) : (s.setPc v).fb1 = s.fb1 := rfl
@[simp] theorem State.setPc_displayFB (v : Word) : (s.setPc v).displayFB = s.displayFB := rfl
@[simp] theorem State.setPc_borderColor (v : Word) : (s.setPc v).borderColor = s.borderColor := rfl
@[simp] theorem State.setPc_vbsEnable (v : Word) : (s.setPc v).vbsEnable = s.vbsEnable := rfl
@[simp] theorem State.setPc_vblankService (v : Word) : (s.setPc v).vblankService = s.vblankService := rfl
@[simp] theorem State.setPc_spriteSheetPtr (v : Word) : (s.setPc v).spriteSheetPtr = s.spriteSheetPtr := rfl
@[simp] theorem State.setPc_spriteTablePtr (v : Word) : (s.setPc v).spriteTablePtr = s.spriteTablePtr := rfl
@[simp] theorem State.setPc_spriteCount (v : Word) : (s.setPc v).spriteCount = s.spriteCount := rfl
@[simp] theorem State.setPc_halted (v : Word) : (s.setPc v).halted = s.halted := rfl
@[simp] theorem State.setPc_vsyncWait (v : Word) : (s.setPc v).vsyncWait = s.vsyncWait := rfl
@[simp] theorem State.setPc_videoTime (v : Word) : (s.setPc v).videoTime = s.videoTime := rfl
@[simp] theorem State.setPc_events (v : Word) : (s.setPc v).events = s.events := rfl
@[simp] theorem State.setPc_draws (v : Word) : (s.setPc v).draws = s.draws := rfl
@[simp] theorem State.setPc_reg (v : Word) (r : Reg) : (s.setPc v).reg r = s.reg r := rfl
@[simp] theorem State.setPc_fb (v : Word) (j : BitVec 1) : (s.setPc v).fb j = s.fb j := rfl
@[simp] theorem State.setPc_byteAt (v : Word) (p : Place) : (s.setPc v).byteAt p = s.byteAt p := by
  cases p <;> rfl

/-! ### `setSp` -/

@[simp] theorem State.setSp_cfg (v : Word) : (s.setSp v).cfg = s.cfg := rfl
@[simp] theorem State.setSp_regs (v : Word) : (s.setSp v).regs = s.regs := rfl
@[simp] theorem State.setSp_pc (v : Word) : (s.setSp v).pc = s.pc := rfl
@[simp] theorem State.setSp_sp (v : Word) : (s.setSp v).sp = v := rfl
@[simp] theorem State.setSp_flags (v : Word) : (s.setSp v).flags = s.flags := rfl
@[simp] theorem State.setSp_callStack (v : Word) : (s.setSp v).callStack = s.callStack := rfl
@[simp] theorem State.setSp_sram (v : Word) : (s.setSp v).sram = s.sram := rfl
@[simp] theorem State.setSp_stored (v : Word) : (s.setSp v).stored = s.stored := rfl
@[simp] theorem State.setSp_fb0 (v : Word) : (s.setSp v).fb0 = s.fb0 := rfl
@[simp] theorem State.setSp_fb1 (v : Word) : (s.setSp v).fb1 = s.fb1 := rfl
@[simp] theorem State.setSp_displayFB (v : Word) : (s.setSp v).displayFB = s.displayFB := rfl
@[simp] theorem State.setSp_borderColor (v : Word) : (s.setSp v).borderColor = s.borderColor := rfl
@[simp] theorem State.setSp_vbsEnable (v : Word) : (s.setSp v).vbsEnable = s.vbsEnable := rfl
@[simp] theorem State.setSp_vblankService (v : Word) : (s.setSp v).vblankService = s.vblankService := rfl
@[simp] theorem State.setSp_spriteSheetPtr (v : Word) : (s.setSp v).spriteSheetPtr = s.spriteSheetPtr := rfl
@[simp] theorem State.setSp_spriteTablePtr (v : Word) : (s.setSp v).spriteTablePtr = s.spriteTablePtr := rfl
@[simp] theorem State.setSp_spriteCount (v : Word) : (s.setSp v).spriteCount = s.spriteCount := rfl
@[simp] theorem State.setSp_halted (v : Word) : (s.setSp v).halted = s.halted := rfl
@[simp] theorem State.setSp_vsyncWait (v : Word) : (s.setSp v).vsyncWait = s.vsyncWait := rfl
@[simp] theorem State.setSp_videoTime (v : Word) : (s.setSp v).videoTime = s.videoTime := rfl
@[simp] theorem State.setSp_events (v : Word) : (s.setSp v).events = s.events := rfl
@[simp] theorem State.setSp_draws (v : Word) : (s.setSp v).draws = s.draws := rfl
@[simp] theorem State.setSp_reg (v : Word) (r : Reg) : (s.setSp v).reg r = s.reg r := rfl
@[simp] theorem State.setSp_fb (v : Word) (j : BitVec 1) : (s.setSp v).fb j = s.fb j := rfl
@[simp] theorem State.setSp_byteAt (v : Word) (p : Place) : (s.setSp v).byteAt p = s.byteAt p := by
  cases p <;> rfl

/-! ### `setFlags` -/

@[simp] theorem State.setFlags_cfg (f : FlagBits) : (s.setFlags f).cfg = s.cfg := rfl
@[simp] theorem State.setFlags_regs (f : FlagBits) : (s.setFlags f).regs = s.regs := rfl
@[simp] theorem State.setFlags_pc (f : FlagBits) : (s.setFlags f).pc = s.pc := rfl
@[simp] theorem State.setFlags_sp (f : FlagBits) : (s.setFlags f).sp = s.sp := rfl
@[simp] theorem State.setFlags_flags (f : FlagBits) : (s.setFlags f).flags = f := rfl
@[simp] theorem State.setFlags_callStack (f : FlagBits) : (s.setFlags f).callStack = s.callStack := rfl
@[simp] theorem State.setFlags_sram (f : FlagBits) : (s.setFlags f).sram = s.sram := rfl
@[simp] theorem State.setFlags_stored (f : FlagBits) : (s.setFlags f).stored = s.stored := rfl
@[simp] theorem State.setFlags_fb0 (f : FlagBits) : (s.setFlags f).fb0 = s.fb0 := rfl
@[simp] theorem State.setFlags_fb1 (f : FlagBits) : (s.setFlags f).fb1 = s.fb1 := rfl
@[simp] theorem State.setFlags_displayFB (f : FlagBits) : (s.setFlags f).displayFB = s.displayFB := rfl
@[simp] theorem State.setFlags_borderColor (f : FlagBits) : (s.setFlags f).borderColor = s.borderColor := rfl
@[simp] theorem State.setFlags_vbsEnable (f : FlagBits) : (s.setFlags f).vbsEnable = s.vbsEnable := rfl
@[simp] theorem State.setFlags_vblankService (f : FlagBits) : (s.setFlags f).vblankService = s.vblankService := rfl
@[simp] theorem State.setFlags_spriteSheetPtr (f : FlagBits) : (s.setFlags f).spriteSheetPtr = s.spriteSheetPtr := rfl
@[simp] theorem State.setFlags_spriteTablePtr (f : FlagBits) : (s.setFlags f).spriteTablePtr = s.spriteTablePtr := rfl
@[simp] theorem State.setFlags_spriteCount (f : FlagBits) : (s.setFlags f).spriteCount = s.spriteCount := rfl
@[simp] theorem State.setFlags_halted (f : FlagBits) : (s.setFlags f).halted = s.halted := rfl
@[simp] theorem State.setFlags_vsyncWait (f : FlagBits) : (s.setFlags f).vsyncWait = s.vsyncWait := rfl
@[simp] theorem State.setFlags_videoTime (f : FlagBits) : (s.setFlags f).videoTime = s.videoTime := rfl
@[simp] theorem State.setFlags_events (f : FlagBits) : (s.setFlags f).events = s.events := rfl
@[simp] theorem State.setFlags_draws (f : FlagBits) : (s.setFlags f).draws = s.draws := rfl
@[simp] theorem State.setFlags_reg (f : FlagBits) (r : Reg) : (s.setFlags f).reg r = s.reg r := rfl
@[simp] theorem State.setFlags_fb (f : FlagBits) (j : BitVec 1) : (s.setFlags f).fb j = s.fb j := rfl
@[simp] theorem State.setFlags_byteAt (f : FlagBits) (p : Place) : (s.setFlags f).byteAt p = s.byteAt p := by
  cases p <;> rfl

/-! ### `setHalted` -/

@[simp] theorem State.setHalted_cfg : (s.setHalted).cfg = s.cfg := rfl
@[simp] theorem State.setHalted_regs : (s.setHalted).regs = s.regs := rfl
@[simp] theorem State.setHalted_pc : (s.setHalted).pc = s.pc := rfl
@[simp] theorem State.setHalted_sp : (s.setHalted).sp = s.sp := rfl
@[simp] theorem State.setHalted_flags : (s.setHalted).flags = s.flags := rfl
@[simp] theorem State.setHalted_callStack : (s.setHalted).callStack = s.callStack := rfl
@[simp] theorem State.setHalted_sram : (s.setHalted).sram = s.sram := rfl
@[simp] theorem State.setHalted_stored : (s.setHalted).stored = s.stored := rfl
@[simp] theorem State.setHalted_fb0 : (s.setHalted).fb0 = s.fb0 := rfl
@[simp] theorem State.setHalted_fb1 : (s.setHalted).fb1 = s.fb1 := rfl
@[simp] theorem State.setHalted_displayFB : (s.setHalted).displayFB = s.displayFB := rfl
@[simp] theorem State.setHalted_borderColor : (s.setHalted).borderColor = s.borderColor := rfl
@[simp] theorem State.setHalted_vbsEnable : (s.setHalted).vbsEnable = s.vbsEnable := rfl
@[simp] theorem State.setHalted_vblankService : (s.setHalted).vblankService = s.vblankService := rfl
@[simp] theorem State.setHalted_spriteSheetPtr : (s.setHalted).spriteSheetPtr = s.spriteSheetPtr := rfl
@[simp] theorem State.setHalted_spriteTablePtr : (s.setHalted).spriteTablePtr = s.spriteTablePtr := rfl
@[simp] theorem State.setHalted_spriteCount : (s.setHalted).spriteCount = s.spriteCount := rfl
@[simp] theorem State.setHalted_halted : (s.setHalted).halted = true := rfl
@[simp] theorem State.setHalted_vsyncWait : (s.setHalted).vsyncWait = s.vsyncWait := rfl
@[simp] theorem State.setHalted_videoTime : (s.setHalted).videoTime = s.videoTime := rfl
@[simp] theorem State.setHalted_events : (s.setHalted).events = s.events := rfl
@[simp] theorem State.setHalted_draws : (s.setHalted).draws = s.draws := rfl
@[simp] theorem State.setHalted_reg (r : Reg) : (s.setHalted).reg r = s.reg r := rfl
@[simp] theorem State.setHalted_fb (j : BitVec 1) : (s.setHalted).fb j = s.fb j := rfl
@[simp] theorem State.setHalted_byteAt (p : Place) : (s.setHalted).byteAt p = s.byteAt p := by
  cases p <;> rfl

/-! ### `draw` -/

@[simp] theorem State.draw_cfg : (s.draw).cfg = s.cfg := rfl
@[simp] theorem State.draw_regs : (s.draw).regs = s.regs := rfl
@[simp] theorem State.draw_pc : (s.draw).pc = s.pc := rfl
@[simp] theorem State.draw_sp : (s.draw).sp = s.sp := rfl
@[simp] theorem State.draw_flags : (s.draw).flags = s.flags := rfl
@[simp] theorem State.draw_callStack : (s.draw).callStack = s.callStack := rfl
@[simp] theorem State.draw_sram : (s.draw).sram = s.sram := rfl
@[simp] theorem State.draw_stored : (s.draw).stored = s.stored := rfl
@[simp] theorem State.draw_fb0 : (s.draw).fb0 = s.fb0 := rfl
@[simp] theorem State.draw_fb1 : (s.draw).fb1 = s.fb1 := rfl
@[simp] theorem State.draw_displayFB : (s.draw).displayFB = s.displayFB := rfl
@[simp] theorem State.draw_borderColor : (s.draw).borderColor = s.borderColor := rfl
@[simp] theorem State.draw_vbsEnable : (s.draw).vbsEnable = s.vbsEnable := rfl
@[simp] theorem State.draw_vblankService : (s.draw).vblankService = s.vblankService := rfl
@[simp] theorem State.draw_spriteSheetPtr : (s.draw).spriteSheetPtr = s.spriteSheetPtr := rfl
@[simp] theorem State.draw_spriteTablePtr : (s.draw).spriteTablePtr = s.spriteTablePtr := rfl
@[simp] theorem State.draw_spriteCount : (s.draw).spriteCount = s.spriteCount := rfl
@[simp] theorem State.draw_halted : (s.draw).halted = s.halted := rfl
@[simp] theorem State.draw_vsyncWait : (s.draw).vsyncWait = s.vsyncWait := rfl
@[simp] theorem State.draw_videoTime : (s.draw).videoTime = s.videoTime := rfl
@[simp] theorem State.draw_events : (s.draw).events = s.events := rfl
@[simp] theorem State.draw_draws : (s.draw).draws = s.draws + 1 := rfl
@[simp] theorem State.draw_reg (r : Reg) : (s.draw).reg r = s.reg r := rfl
@[simp] theorem State.draw_fb (j : BitVec 1) : (s.draw).fb j = s.fb j := rfl
@[simp] theorem State.draw_byteAt (p : Place) : (s.draw).byteAt p = s.byteAt p := by
  cases p <;> rfl

/-! ### `emit` -/

@[simp] theorem State.emit_cfg (e : Event) : (s.emit e).cfg = s.cfg := rfl
@[simp] theorem State.emit_regs (e : Event) : (s.emit e).regs = s.regs := rfl
@[simp] theorem State.emit_pc (e : Event) : (s.emit e).pc = s.pc := rfl
@[simp] theorem State.emit_sp (e : Event) : (s.emit e).sp = s.sp := rfl
@[simp] theorem State.emit_flags (e : Event) : (s.emit e).flags = s.flags := rfl
@[simp] theorem State.emit_callStack (e : Event) : (s.emit e).callStack = s.callStack := rfl
@[simp] theorem State.emit_sram (e : Event) : (s.emit e).sram = s.sram := rfl
@[simp] theorem State.emit_stored (e : Event) : (s.emit e).stored = s.stored := rfl
@[simp] theorem State.emit_fb0 (e : Event) : (s.emit e).fb0 = s.fb0 := rfl
@[simp] theorem State.emit_fb1 (e : Event) : (s.emit e).fb1 = s.fb1 := rfl
@[simp] theorem State.emit_displayFB (e : Event) : (s.emit e).displayFB = s.displayFB := rfl
@[simp] theorem State.emit_borderColor (e : Event) : (s.emit e).borderColor = s.borderColor := rfl
@[simp] theorem State.emit_vbsEnable (e : Event) : (s.emit e).vbsEnable = s.vbsEnable := rfl
@[simp] theorem State.emit_vblankService (e : Event) : (s.emit e).vblankService = s.vblankService := rfl
@[simp] theorem State.emit_spriteSheetPtr (e : Event) : (s.emit e).spriteSheetPtr = s.spriteSheetPtr := rfl
@[simp] theorem State.emit_spriteTablePtr (e : Event) : (s.emit e).spriteTablePtr = s.spriteTablePtr := rfl
@[simp] theorem State.emit_spriteCount (e : Event) : (s.emit e).spriteCount = s.spriteCount := rfl
@[simp] theorem State.emit_halted (e : Event) : (s.emit e).halted = s.halted := rfl
@[simp] theorem State.emit_vsyncWait (e : Event) : (s.emit e).vsyncWait = s.vsyncWait := rfl
@[simp] theorem State.emit_videoTime (e : Event) : (s.emit e).videoTime = s.videoTime := rfl
@[simp] theorem State.emit_events (e : Event) : (s.emit e).events = s.events ++ [e] := rfl
@[simp] theorem State.emit_draws (e : Event) : (s.emit e).draws = s.draws := rfl
@[simp] theorem State.emit_reg (e : Event) (r : Reg) : (s.emit e).reg r = s.reg r := rfl
@[simp] theorem State.emit_fb (e : Event) (j : BitVec 1) : (s.emit e).fb j = s.fb j := rfl
@[simp] theorem State.emit_byteAt (e : Event) (p : Place) : (s.emit e).byteAt p = s.byteAt p := by
  cases p <;> rfl

/-! ### `setCallStack` -/

@[simp] theorem State.setCallStack_cfg (cs : List Word) : (s.setCallStack cs).cfg = s.cfg := rfl
@[simp] theorem State.setCallStack_regs (cs : List Word) : (s.setCallStack cs).regs = s.regs := rfl
@[simp] theorem State.setCallStack_pc (cs : List Word) : (s.setCallStack cs).pc = s.pc := rfl
@[simp] theorem State.setCallStack_sp (cs : List Word) : (s.setCallStack cs).sp = s.sp := rfl
@[simp] theorem State.setCallStack_flags (cs : List Word) : (s.setCallStack cs).flags = s.flags := rfl
@[simp] theorem State.setCallStack_callStack (cs : List Word) : (s.setCallStack cs).callStack = cs := rfl
@[simp] theorem State.setCallStack_sram (cs : List Word) : (s.setCallStack cs).sram = s.sram := rfl
@[simp] theorem State.setCallStack_stored (cs : List Word) : (s.setCallStack cs).stored = s.stored := rfl
@[simp] theorem State.setCallStack_fb0 (cs : List Word) : (s.setCallStack cs).fb0 = s.fb0 := rfl
@[simp] theorem State.setCallStack_fb1 (cs : List Word) : (s.setCallStack cs).fb1 = s.fb1 := rfl
@[simp] theorem State.setCallStack_displayFB (cs : List Word) : (s.setCallStack cs).displayFB = s.displayFB := rfl
@[simp] theorem State.setCallStack_borderColor (cs : List Word) : (s.setCallStack cs).borderColor = s.borderColor := rfl
@[simp] theorem State.setCallStack_vbsEnable (cs : List Word) : (s.setCallStack cs).vbsEnable = s.vbsEnable := rfl
@[simp] theorem State.setCallStack_vblankService (cs : List Word) : (s.setCallStack cs).vblankService = s.vblankService := rfl
@[simp] theorem State.setCallStack_spriteSheetPtr (cs : List Word) : (s.setCallStack cs).spriteSheetPtr = s.spriteSheetPtr := rfl
@[simp] theorem State.setCallStack_spriteTablePtr (cs : List Word) : (s.setCallStack cs).spriteTablePtr = s.spriteTablePtr := rfl
@[simp] theorem State.setCallStack_spriteCount (cs : List Word) : (s.setCallStack cs).spriteCount = s.spriteCount := rfl
@[simp] theorem State.setCallStack_halted (cs : List Word) : (s.setCallStack cs).halted = s.halted := rfl
@[simp] theorem State.setCallStack_vsyncWait (cs : List Word) : (s.setCallStack cs).vsyncWait = s.vsyncWait := rfl
@[simp] theorem State.setCallStack_videoTime (cs : List Word) : (s.setCallStack cs).videoTime = s.videoTime := rfl
@[simp] theorem State.setCallStack_events (cs : List Word) : (s.setCallStack cs).events = s.events := rfl
@[simp] theorem State.setCallStack_draws (cs : List Word) : (s.setCallStack cs).draws = s.draws := rfl
@[simp] theorem State.setCallStack_reg (cs : List Word) (r : Reg) : (s.setCallStack cs).reg r = s.reg r := rfl
@[simp] theorem State.setCallStack_fb (cs : List Word) (j : BitVec 1) : (s.setCallStack cs).fb j = s.fb j := rfl
@[simp] theorem State.setCallStack_byteAt (cs : List Word) (p : Place) : (s.setCallStack cs).byteAt p = s.byteAt p := by
  cases p <;> rfl

/-! ### `setFb` -/

@[simp] theorem State.setFb_cfg (k : BitVec 1) (f : FrameBuffer) : (s.setFb k f).cfg = s.cfg := rfl
@[simp] theorem State.setFb_regs (k : BitVec 1) (f : FrameBuffer) : (s.setFb k f).regs = s.regs := rfl
@[simp] theorem State.setFb_pc (k : BitVec 1) (f : FrameBuffer) : (s.setFb k f).pc = s.pc := rfl
@[simp] theorem State.setFb_sp (k : BitVec 1) (f : FrameBuffer) : (s.setFb k f).sp = s.sp := rfl
@[simp] theorem State.setFb_flags (k : BitVec 1) (f : FrameBuffer) : (s.setFb k f).flags = s.flags := rfl
@[simp] theorem State.setFb_callStack (k : BitVec 1) (f : FrameBuffer) : (s.setFb k f).callStack = s.callStack := rfl
@[simp] theorem State.setFb_sram (k : BitVec 1) (f : FrameBuffer) : (s.setFb k f).sram = s.sram := rfl
@[simp] theorem State.setFb_stored (k : BitVec 1) (f : FrameBuffer) : (s.setFb k f).stored = s.stored := rfl
@[simp] theorem State.setFb_fb0 (k : BitVec 1) (f : FrameBuffer) : (s.setFb k f).fb0 = if k = 0#1 then f else s.fb0 := rfl
@[simp] theorem State.setFb_fb1 (k : BitVec 1) (f : FrameBuffer) : (s.setFb k f).fb1 = if k = 0#1 then s.fb1 else f := rfl
@[simp] theorem State.setFb_displayFB (k : BitVec 1) (f : FrameBuffer) : (s.setFb k f).displayFB = s.displayFB := rfl
@[simp] theorem State.setFb_borderColor (k : BitVec 1) (f : FrameBuffer) : (s.setFb k f).borderColor = s.borderColor := rfl
@[simp] theorem State.setFb_vbsEnable (k : BitVec 1) (f : FrameBuffer) : (s.setFb k f).vbsEnable = s.vbsEnable := rfl
@[simp] theorem State.setFb_vblankService (k : BitVec 1) (f : FrameBuffer) : (s.setFb k f).vblankService = s.vblankService := rfl
@[simp] theorem State.setFb_spriteSheetPtr (k : BitVec 1) (f : FrameBuffer) : (s.setFb k f).spriteSheetPtr = s.spriteSheetPtr := rfl
@[simp] theorem State.setFb_spriteTablePtr (k : BitVec 1) (f : FrameBuffer) : (s.setFb k f).spriteTablePtr = s.spriteTablePtr := rfl
@[simp] theorem State.setFb_spriteCount (k : BitVec 1) (f : FrameBuffer) : (s.setFb k f).spriteCount = s.spriteCount := rfl
@[simp] theorem State.setFb_halted (k : BitVec 1) (f : FrameBuffer) : (s.setFb k f).halted = s.halted := rfl
@[simp] theorem State.setFb_vsyncWait (k : BitVec 1) (f : FrameBuffer) : (s.setFb k f).vsyncWait = s.vsyncWait := rfl
@[simp] theorem State.setFb_videoTime (k : BitVec 1) (f : FrameBuffer) : (s.setFb k f).videoTime = s.videoTime := rfl
@[simp] theorem State.setFb_events (k : BitVec 1) (f : FrameBuffer) : (s.setFb k f).events = s.events := rfl
@[simp] theorem State.setFb_draws (k : BitVec 1) (f : FrameBuffer) : (s.setFb k f).draws = s.draws := rfl
@[simp] theorem State.setFb_reg (k : BitVec 1) (f : FrameBuffer) (r : Reg) : (s.setFb k f).reg r = s.reg r := rfl

/-! ### `setBorder` -/

@[simp] theorem State.setBorder_cfg (b : Byte) : (s.setBorder b).cfg = s.cfg := rfl
@[simp] theorem State.setBorder_regs (b : Byte) : (s.setBorder b).regs = s.regs := rfl
@[simp] theorem State.setBorder_pc (b : Byte) : (s.setBorder b).pc = s.pc := rfl
@[simp] theorem State.setBorder_sp (b : Byte) : (s.setBorder b).sp = s.sp := rfl
@[simp] theorem State.setBorder_flags (b : Byte) : (s.setBorder b).flags = s.flags := rfl
@[simp] theorem State.setBorder_callStack (b : Byte) : (s.setBorder b).callStack = s.callStack := rfl
@[simp] theorem State.setBorder_sram (b : Byte) : (s.setBorder b).sram = s.sram := rfl
@[simp] theorem State.setBorder_stored (b : Byte) : (s.setBorder b).stored = s.stored := rfl
@[simp] theorem State.setBorder_fb0 (b : Byte) : (s.setBorder b).fb0 = s.fb0 := rfl
@[simp] theorem State.setBorder_fb1 (b : Byte) : (s.setBorder b).fb1 = s.fb1 := rfl
@[simp] theorem State.setBorder_displayFB (b : Byte) : (s.setBorder b).displayFB = s.displayFB := rfl
@[simp] theorem State.setBorder_borderColor (b : Byte) : (s.setBorder b).borderColor = b := rfl
@[simp] theorem State.setBorder_vbsEnable (b : Byte) : (s.setBorder b).vbsEnable = s.vbsEnable := rfl
@[simp] theorem State.setBorder_vblankService (b : Byte) : (s.setBorder b).vblankService = s.vblankService := rfl
@[simp] theorem State.setBorder_spriteSheetPtr (b : Byte) : (s.setBorder b).spriteSheetPtr = s.spriteSheetPtr := rfl
@[simp] theorem State.setBorder_spriteTablePtr (b : Byte) : (s.setBorder b).spriteTablePtr = s.spriteTablePtr := rfl
@[simp] theorem State.setBorder_spriteCount (b : Byte) : (s.setBorder b).spriteCount = s.spriteCount := rfl
@[simp] theorem State.setBorder_halted (b : Byte) : (s.setBorder b).halted = s.halted := rfl
@[simp] theorem State.setBorder_vsyncWait (b : Byte) : (s.setBorder b).vsyncWait = s.vsyncWait := rfl
@[simp] theorem State.setBorder_videoTime (b : Byte) : (s.setBorder b).videoTime = s.videoTime := rfl
@[simp] theorem State.setBorder_events (b : Byte) : (s.setBorder b).events = s.events := rfl
@[simp] theorem State.setBorder_draws (b : Byte) : (s.setBorder b).draws = s.draws := rfl
@[simp] theorem State.setBorder_reg (b : Byte) (r : Reg) : (s.setBorder b).reg r = s.reg r := rfl
@[simp] theorem State.setBorder_fb (b : Byte) (j : BitVec 1) : (s.setBorder b).fb j = s.fb j := rfl

/-! ### `setVbsEnable` -/

@[simp] theorem State.setVbsEnable_cfg (b : Byte) : (s.setVbsEnable b).cfg = s.cfg := rfl
@[simp] theorem State.setVbsEnable_regs (b : Byte) : (s.setVbsEnable b).regs = s.regs := rfl
@[simp] theorem State.setVbsEnable_pc (b : Byte) : (s.setVbsEnable b).pc = s.pc := rfl
@[simp] theorem State.setVbsEnable_sp (b : Byte) : (s.setVbsEnable b).sp = s.sp := rfl
@[simp] theorem State.setVbsEnable_flags (b : Byte) : (s.setVbsEnable b).flags = s.flags := rfl
@[simp] theorem State.setVbsEnable_callStack (b : Byte) : (s.setVbsEnable b).callStack = s.callStack := rfl
@[simp] theorem State.setVbsEnable_sram (b : Byte) : (s.setVbsEnable b).sram = s.sram := rfl
@[simp] theorem State.setVbsEnable_stored (b : Byte) : (s.setVbsEnable b).stored = s.stored := rfl
@[simp] theorem State.setVbsEnable_fb0 (b : Byte) : (s.setVbsEnable b).fb0 = s.fb0 := rfl
@[simp] theorem State.setVbsEnable_fb1 (b : Byte) : (s.setVbsEnable b).fb1 = s.fb1 := rfl
@[simp] theorem State.setVbsEnable_displayFB (b : Byte) : (s.setVbsEnable b).displayFB = s.displayFB := rfl
@[simp] theorem State.setVbsEnable_borderColor (b : Byte) : (s.setVbsEnable b).borderColor = s.borderColor := rfl
@[simp] theorem State.setVbsEnable_vbsEnable (b : Byte) : (s.setVbsEnable b).vbsEnable = b := rfl
@[simp] theorem State.setVbsEnable_vblankService (b : Byte) : (s.setVbsEnable b).vblankService = s.vblankService := rfl
@[simp] theorem State.setVbsEnable_spriteSheetPtr (b : Byte) : (s.setVbsEnable b).spriteSheetPtr = s.spriteSheetPtr := rfl
@[simp] theorem State.setVbsEnable_spriteTablePtr (b : Byte) : (s.setVbsEnable b).spriteTablePtr = s.spriteTablePtr := rfl
@[simp] theorem State.setVbsEnable_spriteCount (b : Byte) : (s.setVbsEnable b).spriteCount = s.spriteCount := rfl
@[simp] theorem State.setVbsEnable_halted (b : Byte) : (s.setVbsEnable b).halted = s.halted := rfl
@[simp] theorem State.setVbsEnable_vsyncWait (b : Byte) : (s.setVbsEnable b).vsyncWait = s.vsyncWait := rfl
@[simp] theorem State.setVbsEnable_videoTime (b : Byte) : (s.setVbsEnable b).videoTime = s.videoTime := rfl
@[simp] theorem State.setVbsEnable_events (b : Byte) : (s.setVbsEnable b).events = s.events := rfl
@[simp] theorem State.setVbsEnable_draws (b : Byte) : (s.setVbsEnable b).draws = s.draws := rfl
@[simp] theorem State.setVbsEnable_reg (b : Byte) (r : Reg) : (s.setVbsEnable b).reg r = s.reg r := rfl
@[simp] theorem State.setVbsEnable_fb (b : Byte) (j : BitVec 1) : (s.setVbsEnable b).fb j = s.fb j := rfl

/-! ### `setService` -/

@[simp] theorem State.setService_cfg (k : Fin 4) (b : Byte) : (s.setService k b).cfg = s.cfg := rfl
@[simp] theorem State.setService_regs (k : Fin 4) (b : Byte) : (s.setService k b).regs = s.regs := rfl
@[simp] theorem State.setService_pc (k : Fin 4) (b : Byte) : (s.setService k b).pc = s.pc := rfl
@[simp] theorem State.setService_sp (k : Fin 4) (b : Byte) : (s.setService k b).sp = s.sp := rfl
@[simp] theorem State.setService_flags (k : Fin 4) (b : Byte) : (s.setService k b).flags = s.flags := rfl
@[simp] theorem State.setService_callStack (k : Fin 4) (b : Byte) : (s.setService k b).callStack = s.callStack := rfl
@[simp] theorem State.setService_sram (k : Fin 4) (b : Byte) : (s.setService k b).sram = s.sram := rfl
@[simp] theorem State.setService_stored (k : Fin 4) (b : Byte) : (s.setService k b).stored = s.stored := rfl
@[simp] theorem State.setService_fb0 (k : Fin 4) (b : Byte) : (s.setService k b).fb0 = s.fb0 := rfl
@[simp] theorem State.setService_fb1 (k : Fin 4) (b : Byte) : (s.setService k b).fb1 = s.fb1 := rfl
@[simp] theorem State.setService_displayFB (k : Fin 4) (b : Byte) : (s.setService k b).displayFB = s.displayFB := rfl
@[simp] theorem State.setService_borderColor (k : Fin 4) (b : Byte) : (s.setService k b).borderColor = s.borderColor := rfl
@[simp] theorem State.setService_vbsEnable (k : Fin 4) (b : Byte) : (s.setService k b).vbsEnable = s.vbsEnable := rfl
@[simp] theorem State.setService_vblankService (k : Fin 4) (b : Byte) : (s.setService k b).vblankService = s.vblankService.set k b := rfl
@[simp] theorem State.setService_spriteSheetPtr (k : Fin 4) (b : Byte) : (s.setService k b).spriteSheetPtr = s.spriteSheetPtr := rfl
@[simp] theorem State.setService_spriteTablePtr (k : Fin 4) (b : Byte) : (s.setService k b).spriteTablePtr = s.spriteTablePtr := rfl
@[simp] theorem State.setService_spriteCount (k : Fin 4) (b : Byte) : (s.setService k b).spriteCount = s.spriteCount := rfl
@[simp] theorem State.setService_halted (k : Fin 4) (b : Byte) : (s.setService k b).halted = s.halted := rfl
@[simp] theorem State.setService_vsyncWait (k : Fin 4) (b : Byte) : (s.setService k b).vsyncWait = s.vsyncWait := rfl
@[simp] theorem State.setService_videoTime (k : Fin 4) (b : Byte) : (s.setService k b).videoTime = s.videoTime := rfl
@[simp] theorem State.setService_events (k : Fin 4) (b : Byte) : (s.setService k b).events = s.events := rfl
@[simp] theorem State.setService_draws (k : Fin 4) (b : Byte) : (s.setService k b).draws = s.draws := rfl
@[simp] theorem State.setService_reg (k : Fin 4) (b : Byte) (r : Reg) : (s.setService k b).reg r = s.reg r := rfl
@[simp] theorem State.setService_fb (k : Fin 4) (b : Byte) (j : BitVec 1) : (s.setService k b).fb j = s.fb j := rfl

/-! ### `pokeByte` -/

@[simp] theorem State.pokeByte_cfg (a : Word) (b : Byte) : (s.pokeByte a b).cfg = s.cfg := rfl
@[simp] theorem State.pokeByte_regs (a : Word) (b : Byte) : (s.pokeByte a b).regs = s.regs := rfl
@[simp] theorem State.pokeByte_pc (a : Word) (b : Byte) : (s.pokeByte a b).pc = s.pc := rfl
@[simp] theorem State.pokeByte_sp (a : Word) (b : Byte) : (s.pokeByte a b).sp = s.sp := rfl
@[simp] theorem State.pokeByte_flags (a : Word) (b : Byte) : (s.pokeByte a b).flags = s.flags := rfl
@[simp] theorem State.pokeByte_callStack (a : Word) (b : Byte) : (s.pokeByte a b).callStack = s.callStack := rfl
@[simp] theorem State.pokeByte_sram (a : Word) (b : Byte) : (s.pokeByte a b).sram = Memory.put sramUnlisted s.sram a.toNat b := rfl
@[simp] theorem State.pokeByte_stored (a : Word) (b : Byte) : (s.pokeByte a b).stored = insertAddress a.toNat s.stored := rfl
@[simp] theorem State.pokeByte_fb0 (a : Word) (b : Byte) : (s.pokeByte a b).fb0 = s.fb0 := rfl
@[simp] theorem State.pokeByte_fb1 (a : Word) (b : Byte) : (s.pokeByte a b).fb1 = s.fb1 := rfl
@[simp] theorem State.pokeByte_displayFB (a : Word) (b : Byte) : (s.pokeByte a b).displayFB = s.displayFB := rfl
@[simp] theorem State.pokeByte_borderColor (a : Word) (b : Byte) : (s.pokeByte a b).borderColor = s.borderColor := rfl
@[simp] theorem State.pokeByte_vbsEnable (a : Word) (b : Byte) : (s.pokeByte a b).vbsEnable = s.vbsEnable := rfl
@[simp] theorem State.pokeByte_vblankService (a : Word) (b : Byte) : (s.pokeByte a b).vblankService = s.vblankService := rfl
@[simp] theorem State.pokeByte_spriteSheetPtr (a : Word) (b : Byte) : (s.pokeByte a b).spriteSheetPtr = s.spriteSheetPtr := rfl
@[simp] theorem State.pokeByte_spriteTablePtr (a : Word) (b : Byte) : (s.pokeByte a b).spriteTablePtr = s.spriteTablePtr := rfl
@[simp] theorem State.pokeByte_spriteCount (a : Word) (b : Byte) : (s.pokeByte a b).spriteCount = s.spriteCount := rfl
@[simp] theorem State.pokeByte_halted (a : Word) (b : Byte) : (s.pokeByte a b).halted = s.halted := rfl
@[simp] theorem State.pokeByte_vsyncWait (a : Word) (b : Byte) : (s.pokeByte a b).vsyncWait = s.vsyncWait := rfl
@[simp] theorem State.pokeByte_videoTime (a : Word) (b : Byte) : (s.pokeByte a b).videoTime = s.videoTime := rfl
@[simp] theorem State.pokeByte_events (a : Word) (b : Byte) : (s.pokeByte a b).events = s.events := rfl
@[simp] theorem State.pokeByte_draws (a : Word) (b : Byte) : (s.pokeByte a b).draws = s.draws := rfl
@[simp] theorem State.pokeByte_reg (a : Word) (b : Byte) (r : Reg) : (s.pokeByte a b).reg r = s.reg r := rfl
@[simp] theorem State.pokeByte_fb (a : Word) (b : Byte) (j : BitVec 1) : (s.pokeByte a b).fb j = s.fb j := rfl

/-! ### `loadImage` -/

@[simp] theorem State.loadImage_cfg (image : List Host.Cell) : (s.loadImage image).cfg = s.cfg := rfl
@[simp] theorem State.loadImage_regs (image : List Host.Cell) : (s.loadImage image).regs = s.regs := rfl
@[simp] theorem State.loadImage_pc (image : List Host.Cell) : (s.loadImage image).pc = s.pc := rfl
@[simp] theorem State.loadImage_sp (image : List Host.Cell) : (s.loadImage image).sp = s.sp := rfl
@[simp] theorem State.loadImage_flags (image : List Host.Cell) : (s.loadImage image).flags = s.flags := rfl
@[simp] theorem State.loadImage_callStack (image : List Host.Cell) : (s.loadImage image).callStack = s.callStack := rfl
@[simp] theorem State.loadImage_sram (image : List Host.Cell) : (s.loadImage image).sram = Memory.load s.sram image := rfl
@[simp] theorem State.loadImage_stored (image : List Host.Cell) : (s.loadImage image).stored = s.stored := rfl
@[simp] theorem State.loadImage_fb0 (image : List Host.Cell) : (s.loadImage image).fb0 = s.fb0 := rfl
@[simp] theorem State.loadImage_fb1 (image : List Host.Cell) : (s.loadImage image).fb1 = s.fb1 := rfl
@[simp] theorem State.loadImage_displayFB (image : List Host.Cell) : (s.loadImage image).displayFB = s.displayFB := rfl
@[simp] theorem State.loadImage_borderColor (image : List Host.Cell) : (s.loadImage image).borderColor = s.borderColor := rfl
@[simp] theorem State.loadImage_vbsEnable (image : List Host.Cell) : (s.loadImage image).vbsEnable = s.vbsEnable := rfl
@[simp] theorem State.loadImage_vblankService (image : List Host.Cell) : (s.loadImage image).vblankService = s.vblankService := rfl
@[simp] theorem State.loadImage_spriteSheetPtr (image : List Host.Cell) : (s.loadImage image).spriteSheetPtr = s.spriteSheetPtr := rfl
@[simp] theorem State.loadImage_spriteTablePtr (image : List Host.Cell) : (s.loadImage image).spriteTablePtr = s.spriteTablePtr := rfl
@[simp] theorem State.loadImage_spriteCount (image : List Host.Cell) : (s.loadImage image).spriteCount = s.spriteCount := rfl
@[simp] theorem State.loadImage_halted (image : List Host.Cell) : (s.loadImage image).halted = s.halted := rfl
@[simp] theorem State.loadImage_vsyncWait (image : List Host.Cell) : (s.loadImage image).vsyncWait = s.vsyncWait := rfl
@[simp] theorem State.loadImage_videoTime (image : List Host.Cell) : (s.loadImage image).videoTime = s.videoTime := rfl
@[simp] theorem State.loadImage_events (image : List Host.Cell) : (s.loadImage image).events = s.events := rfl
@[simp] theorem State.loadImage_draws (image : List Host.Cell) : (s.loadImage image).draws = s.draws := rfl
@[simp] theorem State.loadImage_reg (image : List Host.Cell) (r : Reg) : (s.loadImage image).reg r = s.reg r := rfl
@[simp] theorem State.loadImage_fb (image : List Host.Cell) (j : BitVec 1) : (s.loadImage image).fb j = s.fb j := rfl

/-! ### `holdSync` -/

@[simp] theorem State.holdSync_cfg : (s.holdSync).cfg = s.cfg := rfl
@[simp] theorem State.holdSync_regs : (s.holdSync).regs = s.regs := rfl
@[simp] theorem State.holdSync_pc : (s.holdSync).pc = s.pc := rfl
@[simp] theorem State.holdSync_sp : (s.holdSync).sp = s.sp := rfl
@[simp] theorem State.holdSync_flags : (s.holdSync).flags = s.flags := rfl
@[simp] theorem State.holdSync_callStack : (s.holdSync).callStack = s.callStack := rfl
@[simp] theorem State.holdSync_sram : (s.holdSync).sram = s.sram := rfl
@[simp] theorem State.holdSync_stored : (s.holdSync).stored = s.stored := rfl
@[simp] theorem State.holdSync_fb0 : (s.holdSync).fb0 = s.fb0 := rfl
@[simp] theorem State.holdSync_fb1 : (s.holdSync).fb1 = s.fb1 := rfl
@[simp] theorem State.holdSync_displayFB : (s.holdSync).displayFB = s.displayFB := rfl
@[simp] theorem State.holdSync_borderColor : (s.holdSync).borderColor = s.borderColor := rfl
@[simp] theorem State.holdSync_vbsEnable : (s.holdSync).vbsEnable = s.vbsEnable := rfl
@[simp] theorem State.holdSync_vblankService : (s.holdSync).vblankService = s.vblankService := rfl
@[simp] theorem State.holdSync_spriteSheetPtr : (s.holdSync).spriteSheetPtr = s.spriteSheetPtr := rfl
@[simp] theorem State.holdSync_spriteTablePtr : (s.holdSync).spriteTablePtr = s.spriteTablePtr := rfl
@[simp] theorem State.holdSync_spriteCount : (s.holdSync).spriteCount = s.spriteCount := rfl
@[simp] theorem State.holdSync_halted : (s.holdSync).halted = s.halted := rfl
@[simp] theorem State.holdSync_vsyncWait : (s.holdSync).vsyncWait = true := rfl
@[simp] theorem State.holdSync_videoTime : (s.holdSync).videoTime = s.videoTime := rfl
@[simp] theorem State.holdSync_events : (s.holdSync).events = s.events := rfl
@[simp] theorem State.holdSync_draws : (s.holdSync).draws = s.draws := rfl
@[simp] theorem State.holdSync_reg (r : Reg) : (s.holdSync).reg r = s.reg r := rfl
@[simp] theorem State.holdSync_fb (j : BitVec 1) : (s.holdSync).fb j = s.fb j := rfl
@[simp] theorem State.holdSync_byteAt (p : Place) : (s.holdSync).byteAt p = s.byteAt p := by
  cases p <;> rfl

/-! ### `liftSync` -/

@[simp] theorem State.liftSync_cfg : (s.liftSync).cfg = s.cfg := rfl
@[simp] theorem State.liftSync_regs : (s.liftSync).regs = s.regs := rfl
@[simp] theorem State.liftSync_pc : (s.liftSync).pc = s.pc := rfl
@[simp] theorem State.liftSync_sp : (s.liftSync).sp = s.sp := rfl
@[simp] theorem State.liftSync_flags : (s.liftSync).flags = s.flags := rfl
@[simp] theorem State.liftSync_callStack : (s.liftSync).callStack = s.callStack := rfl
@[simp] theorem State.liftSync_sram : (s.liftSync).sram = s.sram := rfl
@[simp] theorem State.liftSync_stored : (s.liftSync).stored = s.stored := rfl
@[simp] theorem State.liftSync_fb0 : (s.liftSync).fb0 = s.fb0 := rfl
@[simp] theorem State.liftSync_fb1 : (s.liftSync).fb1 = s.fb1 := rfl
@[simp] theorem State.liftSync_displayFB : (s.liftSync).displayFB = s.displayFB := rfl
@[simp] theorem State.liftSync_borderColor : (s.liftSync).borderColor = s.borderColor := rfl
@[simp] theorem State.liftSync_vbsEnable : (s.liftSync).vbsEnable = s.vbsEnable := rfl
@[simp] theorem State.liftSync_vblankService : (s.liftSync).vblankService = s.vblankService := rfl
@[simp] theorem State.liftSync_spriteSheetPtr : (s.liftSync).spriteSheetPtr = s.spriteSheetPtr := rfl
@[simp] theorem State.liftSync_spriteTablePtr : (s.liftSync).spriteTablePtr = s.spriteTablePtr := rfl
@[simp] theorem State.liftSync_spriteCount : (s.liftSync).spriteCount = s.spriteCount := rfl
@[simp] theorem State.liftSync_halted : (s.liftSync).halted = s.halted := rfl
@[simp] theorem State.liftSync_vsyncWait : (s.liftSync).vsyncWait = false := rfl
@[simp] theorem State.liftSync_videoTime : (s.liftSync).videoTime = s.videoTime := rfl
@[simp] theorem State.liftSync_events : (s.liftSync).events = s.events := rfl
@[simp] theorem State.liftSync_draws : (s.liftSync).draws = s.draws := rfl
@[simp] theorem State.liftSync_reg (r : Reg) : (s.liftSync).reg r = s.reg r := rfl
@[simp] theorem State.liftSync_fb (j : BitVec 1) : (s.liftSync).fb j = s.fb j := rfl
@[simp] theorem State.liftSync_byteAt (p : Place) : (s.liftSync).byteAt p = s.byteAt p := by
  cases p <;> rfl

/-! ### `videoStep` -/

@[simp] theorem State.videoStep_cfg : (s.videoStep).cfg = s.cfg := rfl
@[simp] theorem State.videoStep_regs : (s.videoStep).regs = s.regs := rfl
@[simp] theorem State.videoStep_pc : (s.videoStep).pc = s.pc := rfl
@[simp] theorem State.videoStep_sp : (s.videoStep).sp = s.sp := rfl
@[simp] theorem State.videoStep_flags : (s.videoStep).flags = s.flags := rfl
@[simp] theorem State.videoStep_callStack : (s.videoStep).callStack = s.callStack := rfl
@[simp] theorem State.videoStep_sram : (s.videoStep).sram = s.sram := rfl
@[simp] theorem State.videoStep_stored : (s.videoStep).stored = s.stored := rfl
@[simp] theorem State.videoStep_fb0 : (s.videoStep).fb0 = s.fb0 := rfl
@[simp] theorem State.videoStep_fb1 : (s.videoStep).fb1 = s.fb1 := rfl
@[simp] theorem State.videoStep_displayFB : (s.videoStep).displayFB = s.displayFB := rfl
@[simp] theorem State.videoStep_borderColor : (s.videoStep).borderColor = s.borderColor := rfl
@[simp] theorem State.videoStep_vbsEnable : (s.videoStep).vbsEnable = s.vbsEnable := rfl
@[simp] theorem State.videoStep_vblankService : (s.videoStep).vblankService = s.vblankService := rfl
@[simp] theorem State.videoStep_spriteSheetPtr : (s.videoStep).spriteSheetPtr = s.spriteSheetPtr := rfl
@[simp] theorem State.videoStep_spriteTablePtr : (s.videoStep).spriteTablePtr = s.spriteTablePtr := rfl
@[simp] theorem State.videoStep_spriteCount : (s.videoStep).spriteCount = s.spriteCount := rfl
@[simp] theorem State.videoStep_halted : (s.videoStep).halted = s.halted := rfl
@[simp] theorem State.videoStep_vsyncWait : (s.videoStep).vsyncWait = s.vsyncWait := rfl
@[simp] theorem State.videoStep_videoTime : (s.videoStep).videoTime = s.videoTime + 1 := rfl
@[simp] theorem State.videoStep_events : (s.videoStep).events = s.events := rfl
@[simp] theorem State.videoStep_draws : (s.videoStep).draws = s.draws := rfl
@[simp] theorem State.videoStep_reg (r : Reg) : (s.videoStep).reg r = s.reg r := rfl
@[simp] theorem State.videoStep_fb (j : BitVec 1) : (s.videoStep).fb j = s.fb j := rfl
@[simp] theorem State.videoStep_byteAt (p : Place) : (s.videoStep).byteAt p = s.byteAt p := by
  cases p <;> rfl

/-! ### `spriteStep` -/

@[simp] theorem State.spriteStep_cfg : (s.spriteStep).cfg = s.cfg := rfl
@[simp] theorem State.spriteStep_regs : (s.spriteStep).regs = s.regs := rfl
@[simp] theorem State.spriteStep_pc : (s.spriteStep).pc = s.pc := rfl
@[simp] theorem State.spriteStep_sp : (s.spriteStep).sp = s.sp := rfl
@[simp] theorem State.spriteStep_flags : (s.spriteStep).flags = s.flags := rfl
@[simp] theorem State.spriteStep_callStack : (s.spriteStep).callStack = s.callStack := rfl
@[simp] theorem State.spriteStep_sram : (s.spriteStep).sram = s.sram := rfl
@[simp] theorem State.spriteStep_stored : (s.spriteStep).stored = s.stored := rfl
@[simp] theorem State.spriteStep_fb0 : (s.spriteStep).fb0 = .drawn := rfl
@[simp] theorem State.spriteStep_fb1 : (s.spriteStep).fb1 = .drawn := rfl
@[simp] theorem State.spriteStep_displayFB : (s.spriteStep).displayFB = s.displayFB := rfl
@[simp] theorem State.spriteStep_borderColor : (s.spriteStep).borderColor = s.borderColor := rfl
@[simp] theorem State.spriteStep_vbsEnable : (s.spriteStep).vbsEnable = s.vbsEnable := rfl
@[simp] theorem State.spriteStep_vblankService : (s.spriteStep).vblankService = s.vblankService := rfl
@[simp] theorem State.spriteStep_spriteSheetPtr : (s.spriteStep).spriteSheetPtr = s.spriteSheetPtr := rfl
@[simp] theorem State.spriteStep_spriteTablePtr : (s.spriteStep).spriteTablePtr = s.spriteTablePtr := rfl
@[simp] theorem State.spriteStep_spriteCount : (s.spriteStep).spriteCount = s.spriteCount := rfl
@[simp] theorem State.spriteStep_halted : (s.spriteStep).halted = s.halted := rfl
@[simp] theorem State.spriteStep_vsyncWait : (s.spriteStep).vsyncWait = s.vsyncWait := rfl
@[simp] theorem State.spriteStep_videoTime : (s.spriteStep).videoTime = s.videoTime := rfl
@[simp] theorem State.spriteStep_events : (s.spriteStep).events = s.events := rfl
@[simp] theorem State.spriteStep_draws : (s.spriteStep).draws = s.draws := rfl
@[simp] theorem State.spriteStep_reg (r : Reg) : (s.spriteStep).reg r = s.reg r := rfl
@[simp] theorem State.spriteStep_fb (j : BitVec 1) : (s.spriteStep).fb j = .drawn := by
  simp [State.fb]

/-! ### `selectFrame` -/

@[simp] theorem State.selectFrame_cfg (v : Word) : (s.selectFrame v).cfg = s.cfg := rfl
@[simp] theorem State.selectFrame_regs (v : Word) : (s.selectFrame v).regs = s.regs := rfl
@[simp] theorem State.selectFrame_pc (v : Word) : (s.selectFrame v).pc = s.pc := rfl
@[simp] theorem State.selectFrame_sp (v : Word) : (s.selectFrame v).sp = s.sp := rfl
@[simp] theorem State.selectFrame_flags (v : Word) : (s.selectFrame v).flags = s.flags := rfl
@[simp] theorem State.selectFrame_callStack (v : Word) : (s.selectFrame v).callStack = s.callStack := rfl
@[simp] theorem State.selectFrame_sram (v : Word) : (s.selectFrame v).sram = s.sram := rfl
@[simp] theorem State.selectFrame_stored (v : Word) : (s.selectFrame v).stored = s.stored := rfl
@[simp] theorem State.selectFrame_fb0 (v : Word) : (s.selectFrame v).fb0 = s.fb0 := rfl
@[simp] theorem State.selectFrame_fb1 (v : Word) : (s.selectFrame v).fb1 = s.fb1 := rfl
@[simp] theorem State.selectFrame_displayFB (v : Word) : (s.selectFrame v).displayFB = v.extractLsb' 0 1 := rfl
@[simp] theorem State.selectFrame_borderColor (v : Word) : (s.selectFrame v).borderColor = s.borderColor := rfl
@[simp] theorem State.selectFrame_vbsEnable (v : Word) : (s.selectFrame v).vbsEnable = s.vbsEnable := rfl
@[simp] theorem State.selectFrame_vblankService (v : Word) : (s.selectFrame v).vblankService = s.vblankService := rfl
@[simp] theorem State.selectFrame_spriteSheetPtr (v : Word) : (s.selectFrame v).spriteSheetPtr = s.spriteSheetPtr := rfl
@[simp] theorem State.selectFrame_spriteTablePtr (v : Word) : (s.selectFrame v).spriteTablePtr = s.spriteTablePtr := rfl
@[simp] theorem State.selectFrame_spriteCount (v : Word) : (s.selectFrame v).spriteCount = s.spriteCount := rfl
@[simp] theorem State.selectFrame_halted (v : Word) : (s.selectFrame v).halted = s.halted := rfl
@[simp] theorem State.selectFrame_vsyncWait (v : Word) : (s.selectFrame v).vsyncWait = s.vsyncWait := rfl
@[simp] theorem State.selectFrame_videoTime (v : Word) : (s.selectFrame v).videoTime = s.videoTime := rfl
@[simp] theorem State.selectFrame_events (v : Word) : (s.selectFrame v).events = s.events := rfl
@[simp] theorem State.selectFrame_draws (v : Word) : (s.selectFrame v).draws = s.draws := rfl
@[simp] theorem State.selectFrame_reg (v : Word) (r : Reg) : (s.selectFrame v).reg r = s.reg r := rfl
@[simp] theorem State.selectFrame_fb (v : Word) (j : BitVec 1) : (s.selectFrame v).fb j = s.fb j := rfl
@[simp] theorem State.selectFrame_byteAt (v : Word) (p : Place) : (s.selectFrame v).byteAt p = s.byteAt p := by
  cases p <;> rfl

/-! ### `kickSprites` -/

@[simp] theorem State.kickSprites_cfg (table count : Word) : (s.kickSprites table count).cfg = s.cfg := rfl
@[simp] theorem State.kickSprites_regs (table count : Word) : (s.kickSprites table count).regs = s.regs := rfl
@[simp] theorem State.kickSprites_pc (table count : Word) : (s.kickSprites table count).pc = s.pc := rfl
@[simp] theorem State.kickSprites_sp (table count : Word) : (s.kickSprites table count).sp = s.sp := rfl
@[simp] theorem State.kickSprites_flags (table count : Word) : (s.kickSprites table count).flags = s.flags := rfl
@[simp] theorem State.kickSprites_callStack (table count : Word) : (s.kickSprites table count).callStack = s.callStack := rfl
@[simp] theorem State.kickSprites_sram (table count : Word) : (s.kickSprites table count).sram = s.sram := rfl
@[simp] theorem State.kickSprites_stored (table count : Word) : (s.kickSprites table count).stored = s.stored := rfl
@[simp] theorem State.kickSprites_fb0 (table count : Word) : (s.kickSprites table count).fb0 = .drawn := rfl
@[simp] theorem State.kickSprites_fb1 (table count : Word) : (s.kickSprites table count).fb1 = .drawn := rfl
@[simp] theorem State.kickSprites_displayFB (table count : Word) : (s.kickSprites table count).displayFB = s.displayFB := rfl
@[simp] theorem State.kickSprites_borderColor (table count : Word) : (s.kickSprites table count).borderColor = s.borderColor := rfl
@[simp] theorem State.kickSprites_vbsEnable (table count : Word) : (s.kickSprites table count).vbsEnable = s.vbsEnable := rfl
@[simp] theorem State.kickSprites_vblankService (table count : Word) : (s.kickSprites table count).vblankService = s.vblankService := rfl
@[simp] theorem State.kickSprites_spriteSheetPtr (table count : Word) : (s.kickSprites table count).spriteSheetPtr = s.spriteSheetPtr := rfl
@[simp] theorem State.kickSprites_spriteTablePtr (table count : Word) : (s.kickSprites table count).spriteTablePtr = table := rfl
@[simp] theorem State.kickSprites_spriteCount (table count : Word) : (s.kickSprites table count).spriteCount = count := rfl
@[simp] theorem State.kickSprites_halted (table count : Word) : (s.kickSprites table count).halted = s.halted := rfl
@[simp] theorem State.kickSprites_vsyncWait (table count : Word) : (s.kickSprites table count).vsyncWait = s.vsyncWait := rfl
@[simp] theorem State.kickSprites_videoTime (table count : Word) : (s.kickSprites table count).videoTime = s.videoTime := rfl
@[simp] theorem State.kickSprites_events (table count : Word) : (s.kickSprites table count).events = s.events := rfl
@[simp] theorem State.kickSprites_draws (table count : Word) : (s.kickSprites table count).draws = s.draws := rfl
@[simp] theorem State.kickSprites_reg (table count : Word) (r : Reg) : (s.kickSprites table count).reg r = s.reg r := rfl

/-! ### `setSheet` -/

@[simp] theorem State.setSheet_cfg (v : Word) : (s.setSheet v).cfg = s.cfg := rfl
@[simp] theorem State.setSheet_regs (v : Word) : (s.setSheet v).regs = s.regs := rfl
@[simp] theorem State.setSheet_pc (v : Word) : (s.setSheet v).pc = s.pc := rfl
@[simp] theorem State.setSheet_sp (v : Word) : (s.setSheet v).sp = s.sp := rfl
@[simp] theorem State.setSheet_flags (v : Word) : (s.setSheet v).flags = s.flags := rfl
@[simp] theorem State.setSheet_callStack (v : Word) : (s.setSheet v).callStack = s.callStack := rfl
@[simp] theorem State.setSheet_sram (v : Word) : (s.setSheet v).sram = s.sram := rfl
@[simp] theorem State.setSheet_stored (v : Word) : (s.setSheet v).stored = s.stored := rfl
@[simp] theorem State.setSheet_fb0 (v : Word) : (s.setSheet v).fb0 = s.fb0 := rfl
@[simp] theorem State.setSheet_fb1 (v : Word) : (s.setSheet v).fb1 = s.fb1 := rfl
@[simp] theorem State.setSheet_displayFB (v : Word) : (s.setSheet v).displayFB = s.displayFB := rfl
@[simp] theorem State.setSheet_borderColor (v : Word) : (s.setSheet v).borderColor = s.borderColor := rfl
@[simp] theorem State.setSheet_vbsEnable (v : Word) : (s.setSheet v).vbsEnable = s.vbsEnable := rfl
@[simp] theorem State.setSheet_vblankService (v : Word) : (s.setSheet v).vblankService = s.vblankService := rfl
@[simp] theorem State.setSheet_spriteSheetPtr (v : Word) : (s.setSheet v).spriteSheetPtr = v := rfl
@[simp] theorem State.setSheet_spriteTablePtr (v : Word) : (s.setSheet v).spriteTablePtr = s.spriteTablePtr := rfl
@[simp] theorem State.setSheet_spriteCount (v : Word) : (s.setSheet v).spriteCount = s.spriteCount := rfl
@[simp] theorem State.setSheet_halted (v : Word) : (s.setSheet v).halted = s.halted := rfl
@[simp] theorem State.setSheet_vsyncWait (v : Word) : (s.setSheet v).vsyncWait = s.vsyncWait := rfl
@[simp] theorem State.setSheet_videoTime (v : Word) : (s.setSheet v).videoTime = s.videoTime := rfl
@[simp] theorem State.setSheet_events (v : Word) : (s.setSheet v).events = s.events := rfl
@[simp] theorem State.setSheet_draws (v : Word) : (s.setSheet v).draws = s.draws := rfl
@[simp] theorem State.setSheet_reg (v : Word) (r : Reg) : (s.setSheet v).reg r = s.reg r := rfl
@[simp] theorem State.setSheet_fb (v : Word) (j : BitVec 1) : (s.setSheet v).fb j = s.fb j := rfl
@[simp] theorem State.setSheet_byteAt (v : Word) (p : Place) : (s.setSheet v).byteAt p = s.byteAt p := by
  cases p <;> rfl

end

/-! ### Registers -/

@[simp] theorem State.reg_setReg_same (s : State) (i : Reg) (v : Word) : (s.setReg i v).reg i = v := by
  simp [State.reg, State.setReg]

theorem State.reg_setReg_of_ne (s : State) (i j : Reg) (v : Word) (h : j ≠ i) :
    (s.setReg i v).reg j = s.reg j := by
  have : i.toNat ≠ j.toNat := fun e => h (BitVec.eq_of_toNat_eq e.symm)
  simp [State.reg, State.setReg, this]

theorem State.reg_setReg (s : State) (i j : Reg) (v : Word) :
    (s.setReg i v).reg j = if j = i then v else s.reg j := by
  split
  · next h => subst h; simp
  · next h => exact s.reg_setReg_of_ne i j v h

/-! ### Advancing -/

@[simp] theorem State.advance_eq (s : State) (n : Nat) : s.advance n = s.setPc (s.nextPc n) := rfl

/-! ### The next pc after an update that leaves pc alone -/

@[simp] theorem State.setReg_nextPc (s : State) (i : Reg) (v : Word) (n : Nat) : (s.setReg i v).nextPc n = s.nextPc n := rfl
@[simp] theorem State.setSp_nextPc (s : State) (v : Word) (n : Nat) : (s.setSp v).nextPc n = s.nextPc n := rfl
@[simp] theorem State.setFlags_nextPc (s : State) (f : FlagBits) (n : Nat) : (s.setFlags f).nextPc n = s.nextPc n := rfl
@[simp] theorem State.setHalted_nextPc (s : State) (n : Nat) : (s.setHalted).nextPc n = s.nextPc n := rfl
@[simp] theorem State.draw_nextPc (s : State) (n : Nat) : (s.draw).nextPc n = s.nextPc n := rfl
@[simp] theorem State.emit_nextPc (s : State) (e : Event) (n : Nat) : (s.emit e).nextPc n = s.nextPc n := rfl
@[simp] theorem State.setCallStack_nextPc (s : State) (cs : List Word) (n : Nat) : (s.setCallStack cs).nextPc n = s.nextPc n := rfl
@[simp] theorem State.setFb_nextPc (s : State) (k : BitVec 1) (f : FrameBuffer) (n : Nat) : (s.setFb k f).nextPc n = s.nextPc n := rfl
@[simp] theorem State.setBorder_nextPc (s : State) (b : Byte) (n : Nat) : (s.setBorder b).nextPc n = s.nextPc n := rfl
@[simp] theorem State.setVbsEnable_nextPc (s : State) (b : Byte) (n : Nat) : (s.setVbsEnable b).nextPc n = s.nextPc n := rfl
@[simp] theorem State.setService_nextPc (s : State) (k : Fin 4) (b : Byte) (n : Nat) : (s.setService k b).nextPc n = s.nextPc n := rfl
@[simp] theorem State.pokeByte_nextPc (s : State) (a : Word) (b : Byte) (n : Nat) : (s.pokeByte a b).nextPc n = s.nextPc n := rfl
@[simp] theorem State.loadImage_nextPc (s : State) (image : List Host.Cell) (n : Nat) : (s.loadImage image).nextPc n = s.nextPc n := rfl
@[simp] theorem State.holdSync_nextPc (s : State) (n : Nat) : (s.holdSync).nextPc n = s.nextPc n := rfl
@[simp] theorem State.liftSync_nextPc (s : State) (n : Nat) : (s.liftSync).nextPc n = s.nextPc n := rfl
@[simp] theorem State.videoStep_nextPc (s : State) (n : Nat) : (s.videoStep).nextPc n = s.nextPc n := rfl
@[simp] theorem State.spriteStep_nextPc (s : State) (n : Nat) : (s.spriteStep).nextPc n = s.nextPc n := rfl
@[simp] theorem State.selectFrame_nextPc (s : State) (v : Word) (n : Nat) : (s.selectFrame v).nextPc n = s.nextPc n := rfl
@[simp] theorem State.kickSprites_nextPc (s : State) (table count : Word) (n : Nat) : (s.kickSprites table count).nextPc n = s.nextPc n := rfl
@[simp] theorem State.setSheet_nextPc (s : State) (v : Word) (n : Nat) : (s.setSheet v).nextPc n = s.nextPc n := rfl

/-! ### Frame buffers -/

@[simp] theorem State.fb_setFb_same (s : State) (k : BitVec 1) (f : FrameBuffer) : (s.setFb k f).fb k = f := by
  unfold State.fb State.setFb
  split <;> simp_all

theorem bit_zero_or_one : ∀ k : BitVec 1, k = 0#1 ∨ k = 1#1 := by decide

theorem State.fb_setFb_of_ne (s : State) (k j : BitVec 1) (f : FrameBuffer) (h : j ≠ k) :
    (s.setFb k f).fb j = s.fb j := by
  unfold State.fb State.setFb
  rcases bit_zero_or_one k with hk | hk <;> rcases bit_zero_or_one j with hj | hj <;> simp_all

/-- The frame buffer that CPU writes reach is never the one displayed (47_io.md R185). -/
theorem State.writeTarget_ne (s : State) : s.writeTarget ≠ s.displayFB := by
  unfold State.writeTarget
  rcases bit_zero_or_one s.displayFB with h | h <;> rw [h] <;> decide

end Sys2Proof.Machine
end

