-- ==== Sys2Proof/Laws/Agents.lean ====
section
/-! SUPPORT. The other agents (60_exceptions.md R212): a vertical sync comes again and again and never at two
steps in a row, and what a step of the video output beside the CPU's answers. -/

namespace Sys2Proof.Machine

/-! ### Vertical syncs -/

theorem isSyncTick_eq_true {n : Nat} : isSyncTick n = true ↔ ∃ k, k ≤ n ∧ syncTime k = n := by
  simp [isSyncTick]

theorem le_syncTime : ∀ k, k ≤ syncTime k
  | 0 => Nat.zero_le _
  | k + 1 => by
    have h := le_syncTime k
    simp only [syncTime]
    omega

theorem syncTime_add_two_le : ∀ {j k : Nat}, j < k → syncTime j + 2 ≤ syncTime k
  | j, k + 1, h => by
    simp only [syncTime]
    rcases Nat.lt_succ_iff_lt_or_eq.1 h with h | rfl
    · have := syncTime_add_two_le h
      omega
    · omega

@[simp] theorem isSyncTick_syncTime (k : Nat) : isSyncTick (syncTime k) = true :=
  isSyncTick_eq_true.2 ⟨k, le_syncTime k, rfl⟩

/-- The vertical sync recurs for ever (92_eei_decisions.md D28). -/
theorem exists_isSyncTick (n : Nat) : ∃ k, isSyncTick (n + k) = true :=
  ⟨syncTime n - n, by rw [Nat.add_sub_cancel' (le_syncTime n)]; exact isSyncTick_syncTime n⟩

/-- No two video steps in a row signal a sync. -/
theorem isSyncTick_succ {n : Nat} (h : isSyncTick n = true) : isSyncTick (n + 1) = false := by
  obtain ⟨j, _, rfl⟩ := isSyncTick_eq_true.1 h
  refine Bool.eq_false_iff.2 fun h' => ?_
  obtain ⟨k, _, hk⟩ := isSyncTick_eq_true.1 h'
  rcases Nat.lt_trichotomy j k with e | rfl | e
  · have := syncTime_add_two_le e
    omega
  · omega
  · have := syncTime_add_two_le e
    omega

/-! ### A step of the video output beside the CPU's -/

@[simp] theorem withVideo_next (t : State) : withVideo (.next t) = .next t.videoStep := rfl
@[simp] theorem withVideo_fault (f : Fault) : withVideo (.fault f) = .fault f := rfl
@[simp] theorem withVideo_refused (r : Refusal) : withVideo (.refused r) = .refused r := rfl

theorem withVideo_eq_next {r : Result} {t : State} : withVideo r = .next t ↔ ∃ u, r = .next u ∧ t = u.videoStep := by
  cases r <;> simp [eq_comm]

theorem withVideo_eq_fault {r : Result} {f : Fault} : withVideo r = .fault f ↔ r = .fault f := by
  cases r <;> simp

/-! ### The sprite unit -/

/-- A later step of the sprite unit has nothing left to take a defined value from: the one taken at the kick
stands for them all (47_io.md R191). -/
theorem State.spriteStep_idem (s : State) : s.spriteStep.spriteStep = s.spriteStep := rfl

end Sys2Proof.Machine
end

