-- ==== Sys2Proof/Laws/Bits.lean ====
section
/-! SUPPORT. Fields of a concatenation, at any widths: what taking apart and putting together bit fields
does. -/

namespace Sys2Proof

theorem extract_append_low {m n : Nat} (x : BitVec m) (y : BitVec n) : (x ++ y).extractLsb' 0 n = y := by
  ext k hk
  simp only [BitVec.getElem_extractLsb', Nat.zero_add, BitVec.getLsbD_append, hk]
  exact BitVec.getLsbD_eq_getElem hk

theorem extract_append_high {m n : Nat} (x : BitVec m) (y : BitVec n) : (x ++ y).extractLsb' n m = x := by
  ext k hk
  simp only [BitVec.getElem_extractLsb', BitVec.getLsbD_append]
  rw [if_neg (by simp), Nat.add_sub_cancel_left]
  exact BitVec.getLsbD_eq_getElem hk

/-- A field that lies in the high part of a concatenation. -/
theorem extract_append_of_le {m n : Nat} (x : BitVec m) (y : BitVec n) (lo k : Nat) (h : n ≤ lo) :
    (x ++ y).extractLsb' lo k = x.extractLsb' (lo - n) k := by
  ext j hj
  simp only [BitVec.getElem_extractLsb', BitVec.getLsbD_append]
  rw [if_neg (by simp; omega)]
  congr 1
  omega

/-- A field that lies in the low part of a concatenation. -/
theorem extract_append_of_add_le {m n : Nat} (x : BitVec m) (y : BitVec n) (lo k : Nat) (h : lo + k ≤ n) :
    (x ++ y).extractLsb' lo k = y.extractLsb' lo k := by
  ext j hj
  simp only [BitVec.getElem_extractLsb', BitVec.getLsbD_append]
  rw [if_pos (by omega)]

theorem extract_all {n : Nat} (x : BitVec n) : x.extractLsb' 0 n = x := by
  ext k hk
  simp

theorem append_extract {m n : Nat} (v : BitVec (m + n)) : v.extractLsb' n m ++ v.extractLsb' 0 n = v := by
  ext k hk
  rw [BitVec.getElem_append]
  split_ifs with h
  · simp [BitVec.getLsbD_eq_getElem hk]
  · simp only [BitVec.getElem_extractLsb']
    rw [show n + (k - n) = k by omega]
    exact BitVec.getLsbD_eq_getElem hk

end Sys2Proof
end

