-- ==== Sys2Proof/Laws/Memory.lean ====
section
/-! SUPPORT. The laws of memory as data: a read after a write, and that every operation keeps the canonical
form. -/

namespace Sys2Proof.Machine

/-! ### Reading after a write -/

theorem Memory.read_insert (m : Memory) (a c : Nat) (b : Byte) :
    Memory.read (Memory.insert a b m) c = if c = a then some b else Memory.read m c := by
  induction m with
  | nil => simp only [Memory.insert, Memory.read, eq_comm]
  | cons e rest ih =>
    obtain ⟨k, v⟩ := e
    simp only [Memory.insert]
    split_ifs <;> simp only [Memory.read, ih] <;> split_ifs <;> first | rfl | omega

theorem Memory.read_eq_none_of_lt (m : Memory) (a : Nat) (h : ∀ c ∈ m, a < c.1) : Memory.read m a = none := by
  induction m with
  | nil => rfl
  | cons e rest ih =>
    have := h e (by simp)
    simp only [Memory.read]
    rw [if_neg (by omega), ih (fun c hc => h c (by simp [hc]))]

theorem Memory.read_erase (m : Memory) (h : m.Pairwise (fun c d => c.1 < d.1)) (a c : Nat) :
    Memory.read (Memory.erase a m) c = if c = a then none else Memory.read m c := by
  induction m with
  | nil => simp [Memory.erase, Memory.read]
  | cons e rest ih =>
    obtain ⟨k, v⟩ := e
    rw [List.pairwise_cons] at h
    by_cases hk : k = a
    · subst hk
      simp only [Memory.erase, Memory.read, ↓reduceIte]
      split_ifs with h1 h2
      · exact Memory.read_eq_none_of_lt rest c (fun d hd => by rw [h1]; exact h.1 d hd)
      · omega
      · rfl
    · simp only [Memory.erase, if_neg hk, Memory.read, ih h.2]
      split_ifs <;> first | rfl | omega

/-- What a write does to every address: the one law of `Memory.put`, when what an unlisted address reads as
is `unlisted`. -/
theorem Memory.read_put (u : Option Byte) (m : Memory) (h : m.Pairwise (fun c d => c.1 < d.1)) (a c : Nat)
    (b : Byte) :
    (Memory.read (Memory.put u m a b) c).or u = if c = a then some b else (Memory.read m c).or u := by
  unfold Memory.put
  by_cases hu : some b = u
  · rw [if_pos hu, Memory.read_erase m h]
    split_ifs
    · rw [Option.none_or, hu]
    · rfl
  · rw [if_neg hu, Memory.read_insert]
    split_ifs <;> rfl

/-- SRAM: a write with no canonical-form premise, since an unlisted address holds no value. -/
theorem Memory.read_putSram (m : Memory) (a c : Nat) (b : Byte) :
    Memory.read (Memory.put sramUnlisted m a b) c = if c = a then some b else Memory.read m c := by
  have : Memory.put sramUnlisted m a b = Memory.insert a b m := by simp [Memory.put]
  rw [this, Memory.read_insert]

/-! ### The canonical form -/

/-- A cell of an image that is loaded and that no later cell of the image names again reads back. -/
theorem Memory.read_load_of_last (m : Memory) (earlier later : List Host.Cell) (a : Nat) (b : Byte)
    (ha : a < sramSize) (h : ∀ c ∈ later, c.1 ≠ a) :
    Memory.read (Memory.load m (earlier ++ (a, b) :: later)) a = some b := by
  have keep : ∀ (later : List Host.Cell) (m : Memory), (∀ c ∈ later, c.1 ≠ a) →
      Memory.read (Memory.load m later) a = Memory.read m a := by
    intro later
    induction later with
    | nil => intro _ _; rfl
    | cons c rest ih =>
      intro m h
      refine (ih _ fun d hd => h d (.tail _ hd)).trans ?_
      dsimp only
      split_ifs
      · rw [Memory.read_putSram, if_neg (Ne.symm (h c (.head _)))]
      · rfl
  rw [Memory.load, List.foldl_append, List.foldl_cons]
  refine (keep later _ h).trans ?_
  rw [if_pos ha, Memory.read_putSram, if_pos rfl]

theorem Memory.mem_insert (m : Memory) (a : Nat) (b : Byte) (c : Host.Cell)
    (h : c ∈ Memory.insert a b m) : c = (a, b) ∨ c ∈ m := by
  induction m with
  | nil => simpa [Memory.insert] using h
  | cons e rest ih =>
    obtain ⟨k, v⟩ := e
    simp only [Memory.insert] at h
    split_ifs at h
    · simpa using h
    · rcases List.mem_cons.1 h with h | h
      · exact .inl h
      · exact .inr (by simp [h])
    · rcases List.mem_cons.1 h with h | h
      · exact .inr (by simp [h])
      · rcases ih h with h | h
        · exact .inl h
        · exact .inr (by simp [h])

theorem Memory.mem_erase (m : Memory) (a : Nat) (c : Host.Cell) (h : c ∈ Memory.erase a m) : c ∈ m := by
  induction m with
  | nil => simp [Memory.erase] at h
  | cons e rest ih =>
    simp only [Memory.erase] at h
    split_ifs at h
    · simp [h]
    · rcases List.mem_cons.1 h with h | h
      · simp [h]
      · simp [ih h]

theorem Memory.pairwise_insert (m : Memory) (h : m.Pairwise (fun c d => c.1 < d.1)) (a : Nat) (b : Byte) :
    (Memory.insert a b m).Pairwise (fun c d => c.1 < d.1) := by
  induction m with
  | nil => simp [Memory.insert]
  | cons e rest ih =>
    obtain ⟨k, v⟩ := e
    have hc := List.pairwise_cons.1 h
    simp only [Memory.insert]
    split_ifs with h1 h2
    · refine List.pairwise_cons.2 ⟨fun c hm => ?_, h⟩
      rcases List.mem_cons.1 hm with rfl | hm
      · exact h1
      · exact lt_trans h1 (hc.1 c hm)
    · subst h2; exact List.pairwise_cons.2 ⟨hc.1, hc.2⟩
    · refine List.pairwise_cons.2 ⟨fun c hm => ?_, ih hc.2⟩
      rcases Memory.mem_insert rest a b c hm with rfl | hm
      · show k < a
        omega
      · exact hc.1 c hm

theorem Memory.pairwise_erase (m : Memory) (h : m.Pairwise (fun c d => c.1 < d.1)) (a : Nat) :
    (Memory.erase a m).Pairwise (fun c d => c.1 < d.1) := by
  induction m with
  | nil => simp [Memory.erase]
  | cons e rest ih =>
    have hc := List.pairwise_cons.1 h
    simp only [Memory.erase]
    split_ifs
    · exact hc.2
    · exact List.pairwise_cons.2 ⟨fun c hm => hc.1 c (Memory.mem_erase rest a c hm), ih hc.2⟩

/-- Every write inside the memory keeps the canonical form. -/
theorem Memory.wf_put (n : Nat) (u : Option Byte) (m : Memory) (h : Memory.wf n u m) (a : Nat) (ha : a < n)
    (b : Byte) : Memory.wf n u (Memory.put u m a b) := by
  unfold Memory.put
  split_ifs with hu
  · exact ⟨Memory.pairwise_erase m h.1 a, fun c hc => h.2 c (Memory.mem_erase m a c hc)⟩
  · refine ⟨Memory.pairwise_insert m h.1 a b, fun c hc => ?_⟩
    rcases Memory.mem_insert m a b c hc with rfl | hc
    · exact ⟨ha, hu⟩
    · exact h.2 c hc

/-- Loading an image keeps SRAM in canonical form. -/
theorem Memory.wf_load (m : Memory) (h : Memory.wf sramSize sramUnlisted m) (image : List Host.Cell) :
    Memory.wf sramSize sramUnlisted (Memory.load m image) := by
  unfold Memory.load
  induction image generalizing m with
  | nil => exact h
  | cons c rest ih =>
    rw [List.foldl_cons]
    split_ifs with hc
    · exact ih _ (Memory.wf_put _ _ m h c.1 hc c.2)
    · exact ih _ h

/-- An address of canonical SRAM that holds a value is inside SRAM. -/
theorem Memory.lt_of_read (n : Nat) (u : Option Byte) (m : Memory) (h : Memory.wf n u m) (a : Nat)
    (ha : (Memory.read m a).isSome = true) : a < n := by
  obtain ⟨-, h⟩ := h
  induction m with
  | nil => simp [Memory.read] at ha
  | cons e rest ih =>
    simp only [Memory.read] at ha
    split_ifs at ha with hk
    · rw [← hk]; exact (h e (by simp)).1
    · exact ih ha (fun c hc => h c (by simp [hc]))

/-! ### The set of stored addresses -/

theorem mem_insertAddress (l : List Nat) (a c : Nat) : c ∈ insertAddress a l ↔ c = a ∨ c ∈ l := by
  induction l with
  | nil => simp [insertAddress]
  | cons k rest ih =>
    simp only [insertAddress]
    split_ifs with h1 h2
    · simp
    · subst h2; simp
    · simp [ih, or_left_comm]

theorem pairwise_insertAddress (l : List Nat) (h : l.Pairwise (· < ·)) (a : Nat) :
    (insertAddress a l).Pairwise (· < ·) := by
  induction l with
  | nil => simp [insertAddress]
  | cons k rest ih =>
    have hc := List.pairwise_cons.1 h
    simp only [insertAddress]
    split_ifs with h1 h2
    · refine List.pairwise_cons.2 ⟨fun c hm => ?_, h⟩
      rcases List.mem_cons.1 hm with rfl | hm
      · exact h1
      · exact lt_trans h1 (hc.1 c hm)
    · exact h
    · refine List.pairwise_cons.2 ⟨fun c hm => ?_, ih hc.2⟩
      rcases (mem_insertAddress rest a c).1 hm with rfl | hm
      · omega
      · exact hc.1 c hm

/-! ### Frame buffers -/

@[simp] theorem FrameBuffer.read_clear (f : FrameBuffer) (b : Byte) (o : Nat) :
    (f.clear b).read o = match f with | .cpu _ _ => some b | .drawn => none := by
  cases f <;> simp [FrameBuffer.clear, FrameBuffer.read, Memory.read]

/-- What a store to a frame buffer does to every offset. -/
theorem FrameBuffer.read_write (f : FrameBuffer) (h : f.wf) (o c : Nat) (b : Byte) :
    (f.write o b).read c = match f with
      | .cpu _ _ => if c = o then some b else f.read c
      | .drawn => none := by
  cases f with
  | drawn => rfl
  | cpu fill cells => exact Memory.read_put fill cells h.1 o c b

theorem FrameBuffer.wf_write (f : FrameBuffer) (h : f.wf) (o : Nat) (ho : o < frameSize) (b : Byte) :
    (f.write o b).wf := by
  cases f with
  | drawn => trivial
  | cpu fill cells => exact Memory.wf_put _ _ _ h _ ho _

theorem FrameBuffer.wf_clear (f : FrameBuffer) (b : Byte) : (f.clear b).wf := by
  cases f with
  | drawn => trivial
  | cpu fill cells => exact ⟨List.Pairwise.nil, fun c hc => by simp at hc⟩

/-- The reset memory has the canonical form. -/
theorem State.resetWith_canonical_sram (cfg : NekoConfig) :
    Memory.wf sramSize sramUnlisted (State.resetWith cfg).sram := ⟨List.Pairwise.nil, fun c hc => by cases hc⟩

end Sys2Proof.Machine
end

