-- ==== Sys2Proof/Laws/Ops.lean ====
section
/-! SUPPORT. For each shared operation, once, everything it can do when it answers a value or a next state. -/

namespace Sys2Proof.Machine

/-! ### Sequencing -/

@[simp] theorem andThen_ok {α : Type} (v : α) (k : α → Result) : andThen (.ok v) k = k v := rfl

@[simp] theorem andThen_error {α : Type} (f : Fault) (k : α → Result) : andThen (.error f) k = .fault f := rfl

theorem andThen_eq_next {α : Type} {e : Except Fault α} {k : α → Result} {t : State} :
    andThen e k = .next t ↔ ∃ v, e = .ok v ∧ k v = .next t := by
  cases e <;> simp [andThen]

theorem andThen_eq_fault {α : Type} {e : Except Fault α} {k : α → Result} {f : Fault} :
    andThen e k = .fault f ↔ e = .error f ∨ ∃ v, e = .ok v ∧ k v = .fault f := by
  cases e <;> simp [andThen]

/-! ### Registers -/

/-- A 16-bit write is a write of the one register, whatever `WORD_WRITE_UPPER` is. -/
theorem State.writeLow16_eq (s : State) (i : Reg) (v : Half) :
    ∃ w, s.writeLow16 i v = s.setReg i w ∧ w.extractLsb' 0 16 = v := by
  unfold State.writeLow16
  cases s.cfg.wordWriteUpper
  · exact ⟨_, rfl, by ext k hk; simp [hk]; omega⟩
  · exact ⟨_, rfl, extract_append_low _ v⟩

theorem State.setRegOrFree_cases (s : State) (i : Reg) (o : Option Word) :
    (∃ v, o = some v ∧ s.setRegOrFree i o = s.setReg i v) ∨
    (o = none ∧ s.setRegOrFree i o = s.draw.setReg i s.freeWord) := by
  cases o with
  | some v => exact .inl ⟨v, rfl, rfl⟩
  | none => exact .inr ⟨rfl, rfl⟩

@[simp] theorem State.setRegOrFree_nextPc (s : State) (i : Reg) (o : Option Word) (n : Nat) :
    (s.setRegOrFree i o).nextPc n = s.nextPc n := by
  cases o <;> rfl

@[simp] theorem State.writeLow16_nextPc (s : State) (i : Reg) (v : Half) (n : Nat) :
    (s.writeLow16 i v).nextPc n = s.nextPc n := by
  obtain ⟨w, hw, _⟩ := s.writeLow16_eq i v
  rw [hw, State.setReg_nextPc]

/-! ### The call stack -/

theorem State.callPush_eq_ok {s t : State} {v : Word} :
    s.callPush v = .ok t ↔
      s.callStack.length < s.cfg.callStackDepth ∧ t = s.setCallStack (s.callStack ++ [v]) := by
  unfold State.callPush
  split_ifs with h <;> simp [h, eq_comm]

theorem State.callPop_eq_ok {s t : State} {v : Word} :
    s.callPop = .ok (v, t) ↔
      s.callStack.getLast? = some v ∧ t = s.setCallStack s.callStack.dropLast := by
  unfold State.callPop
  cases s.callStack.getLast? <;> simp [eq_comm]

/-! ### The address map -/

theorem region_eq_sram {a : Word} : region a = .sram ↔ a.toNat < 0x80000 := by
  unfold region
  split_ifs <;> simp [*]

theorem region_eq_vram {a : Word} : region a = .vram ↔ 0x80000000 ≤ a.toNat ∧ a.toNat < 0x8000C000 := by
  unfold region
  split_ifs <;> simp <;> omega

theorem region_eq_dev {a : Word} : region a = .dev ↔ 0x8000C000 ≤ a.toNat ∧ a.toNat < 0x8000D000 := by
  unfold region
  split_ifs <;> simp <;> omega

theorem mem_span {a b : Word} {n : Nat} : b ∈ span a n ↔ ∃ k < n, b = a + BitVec.ofNat 32 k := by
  simp [span, eq_comm]

theorem loadFault_eq_none {a : Word} {n : Nat} :
    loadFault a n = none ↔ (∀ b ∈ span a n, region b = .sram) ∧ (n = 1 ∨ isOdd a = false) := by
  unfold loadFault
  split_ifs with h1 h2 h3
  · simp only [false_iff, not_and]
    rintro h
    simp only [List.any_eq_true, beq_iff_eq] at h1
    obtain ⟨b, hb, e⟩ := h1
    simp [h b hb] at e
  · simp only [false_iff, not_and]
    rintro h
    simp only [List.any_eq_true, bne_iff_ne] at h2
    obtain ⟨b, hb, e⟩ := h2
    exact absurd (h b hb) e
  · simp only [false_iff, not_and]
    simp at h3
    intro _
    simp [h3]
  · simp at h1 h2 h3
    simp only [true_iff]
    exact ⟨h2, by by_cases hn : n = 1 <;> simp_all⟩

theorem storeFault_eq_none {a : Word} {n : Nat} (hn : n ≠ 1) :
    storeFault a n = none ↔ (∀ b ∈ span a n, region b = .sram) ∧ isOdd a = false := by
  unfold storeFault
  split_ifs with h1 h2 h3
  · simp only [false_iff, not_and]
    rintro h
    simp only [List.any_eq_true, beq_iff_eq] at h1
    obtain ⟨b, hb, e⟩ := h1
    simp [h b hb] at e
  · simp only [false_iff, not_and]
    rintro h
    simp only [Bool.and_eq_true, List.any_eq_true, bne_iff_ne] at h2
    obtain ⟨_, b, hb, e⟩ := h2
    exact absurd (h b hb) e
  · simp only [false_iff, not_and]
    simp at h3
    intro _
    simp [h3]
  · simp [hn] at h1 h2 h3
    simp only [true_iff]
    exact ⟨h2, h3⟩

/-! ### Loads -/

theorem checkedRead_eq_ok {α : Type} {f : Option Fault} {o : Option α} {v : α} :
    checkedRead f o = .ok v ↔ f = none ∧ o = some v := by
  cases f <;> cases o <;> simp [checkedRead]

theorem State.load8_eq_ok {s : State} {a : Word} {b : Byte} :
    s.load8 a = .ok b ↔ loadFault a 1 = none ∧ s.sramByte a = some b := checkedRead_eq_ok

theorem State.load16_eq_ok {s : State} {a : Word} {v : Half} :
    s.load16 a = .ok v ↔ loadFault a 2 = none ∧ s.sramHalf a = some v := checkedRead_eq_ok

theorem State.load32_eq_ok {s : State} {a : Word} {v : Word} :
    s.load32 a = .ok v ↔ loadFault a 4 = none ∧ s.sramWord a = some v := checkedRead_eq_ok

theorem State.sramHalf_eq_some {s : State} {a : Word} {v : Half} :
    s.sramHalf a = some v ↔ ∃ b0 b1, s.sramByte a = some b0 ∧ s.sramByte (a + 1#32) = some b1 ∧
      v = joinHalf s.cfg.wordByteOrder b0 b1 := by
  unfold State.sramHalf
  cases s.sramByte a <;> cases s.sramByte (a + 1#32) <;> simp [eq_comm]

theorem State.sramWord_eq_some {s : State} {a : Word} {v : Word} :
    s.sramWord a = some v ↔ ∃ hi lo, s.sramHalf a = some hi ∧ s.sramHalf (a + 2#32) = some lo ∧ v = hi ++ lo := by
  unfold State.sramWord
  cases s.sramHalf a <;> cases s.sramHalf (a + 2#32) <;> simp [eq_comm]

/-! ### Stores -/

theorem State.storeDevice_eq_ok {s t : State} {o : Nat} {b : Byte} (h : s.storeDevice o b = .ok t) :
    (o = 0 ∧ t = s.setBorder b) ∨ (o = 1 ∧ b = 0#8 ∧ t = s.setVbsEnable 0#8) ∨
    (∃ k : Fin 4, o = 4 + k ∧ t = s.setService k b) ∨ t = s := by
  unfold State.storeDevice at h
  split at h
  · exact .inl ⟨rfl, by simpa using h.symm⟩
  · split_ifs at h with hb
    subst hb
    exact .inr (.inl ⟨rfl, rfl, by simpa using h.symm⟩)
  · exact .inr (.inr (.inl ⟨0, rfl, by simpa using h.symm⟩))
  · exact .inr (.inr (.inl ⟨1, rfl, by simpa using h.symm⟩))
  · exact .inr (.inr (.inl ⟨2, rfl, by simpa using h.symm⟩))
  · exact .inr (.inr (.inl ⟨3, rfl, by simpa using h.symm⟩))
  · exact .inr (.inr (.inr (by simpa using h.symm)))

theorem State.store8_eq_ok {s t : State} {a : Word} {b : Byte} :
    s.store8 a b = .ok t ↔
      (region a = .sram ∧ t = s.pokeByte a b) ∨
      (region a = .vram ∧ t = s.storePixel (a.toNat - 0x80000000) b) ∨
      (region a = .dev ∧ s.storeDevice (a.toNat - 0x8000C000) b = .ok t) := by
  unfold State.store8
  cases region a <;> simp [eq_comm]

theorem State.store16_eq_ok {s t : State} {a : Word} {v : Half} :
    s.store16 a v = .ok t ↔ storeFault a 2 = none ∧ t = s.pokeHalf a v := by
  unfold State.store16
  cases storeFault a 2 <;> simp [eq_comm]

theorem State.store32_eq_ok {s t : State} {a v : Word} :
    s.store32 a v = .ok t ↔ storeFault a 4 = none ∧ t = s.pokeWord a v := by
  unfold State.store32
  cases storeFault a 4 <;> simp [eq_comm]

theorem State.sramByte_pokeByte (s : State) (a c : Word) (b : Byte) :
    (s.pokeByte a b).sramByte c = if c = a then some b else s.sramByte c := by
  simp only [State.sramByte, State.pokeByte_sram, Memory.read_putSram, BitVec.toNat_inj]

@[simp] theorem State.pokeHalf_cfg (s : State) (a : Word) (v : Half) : (s.pokeHalf a v).cfg = s.cfg := rfl

theorem State.sramByte_pokeHalf (s : State) (a c : Word) (v : Half) :
    (s.pokeHalf a v).sramByte c =
      if c = a + 1#32 then some (secondByte s.cfg.wordByteOrder v)
      else if c = a then some (firstByte s.cfg.wordByteOrder v) else s.sramByte c := by
  simp only [State.pokeHalf, State.sramByte_pokeByte]

/-- The two bytes of a word put together are the word, in either order. -/
@[simp] theorem joinHalf_split (order : ByteOrder) (v : Half) :
    joinHalf order (firstByte order v) (secondByte order v) = v := by
  cases order
  · exact append_extract (m := 8) (n := 8) v
  · exact append_extract (m := 8) (n := 8) v

@[simp] theorem firstByte_join (order : ByteOrder) (b0 b1 : Byte) : firstByte order (joinHalf order b0 b1) = b0 := by
  cases order
  · exact extract_append_high b0 b1
  · exact extract_append_low b1 b0

@[simp] theorem secondByte_join (order : ByteOrder) (b0 b1 : Byte) : secondByte order (joinHalf order b0 b1) = b1 := by
  cases order
  · exact extract_append_low b0 b1
  · exact extract_append_high b1 b0

/-- A word read back after a store of it. -/
theorem State.sramHalf_pokeHalf (s : State) (a : Word) (v : Half) : (s.pokeHalf a v).sramHalf a = some v := by
  have h : a ≠ a + 1#32 := by bv_omega
  unfold State.sramHalf
  rw [State.sramByte_pokeHalf, State.sramByte_pokeHalf, if_neg h, if_pos rfl, if_pos rfl]
  simp

/-! ### Branch conditions -/

theorem branchTaken_eq_ok {c : Word} {sense taken : Bool} :
    branchTaken c sense = .ok taken ↔ (c = 1#32 ∧ taken = sense) ∨ (c = 0#32 ∧ taken = !sense) := by
  unfold branchTaken
  split_ifs with h1 h2
  · subst h1; simp [eq_comm]
  · subst h2; simp [eq_comm]
  · simp [h1, h2]

/-! ### Fetch -/

theorem State.fetch16_eq_ok {s : State} {a : Word} {w : Half} :
    s.fetch16 a = .ok w ↔ isOdd a = false ∧ (∀ b ∈ span a 2, region b = .sram) ∧
      (∀ b ∈ span a 2, s.fetchBarred b = false) ∧ s.sramHalf a = some w := by
  unfold State.fetch16
  split_ifs with h1 h2
  · simp only [false_iff]
    rintro ⟨ho, hr, -⟩
    simp only [ho, Bool.false_or, List.any_eq_true, bne_iff_ne] at h1
    obtain ⟨b, hb, e⟩ := h1
    exact e (hr b hb)
  · simp only [false_iff]
    rintro ⟨-, -, hb, -⟩
    simp only [List.any_eq_true] at h2
    obtain ⟨b, hm, e⟩ := h2
    simp [hb b hm] at e
  · simp only [Bool.or_eq_true, List.any_eq_true, bne_iff_ne, not_or, not_exists, not_and, not_not,
      Bool.not_eq_true] at h1 h2
    have : isOdd a = false ∧ (∀ b ∈ span a 2, region b = .sram) ∧ (∀ b ∈ span a 2, s.fetchBarred b = false) :=
      ⟨h1.1, h1.2, h2⟩
    cases h : s.sramHalf a with
    | none => simp
    | some v => simp only [Except.ok.injEq, Option.some.injEq]; tauto

/-- A step that answers a next state is one of the video output beside a halted CPU staying as it is, or beside
the meaning of the instruction at pc. -/
theorem step_eq_next {s t : State} :
    step s = .next t ↔ ∃ u, t = u.videoStep ∧ ((s.halted = true ∧ u = s) ∨
      (s.halted = false ∧ ∃ i, s.fetchInstr = .ok i ∧ exec i s = .next u)) := by
  unfold step
  cases h : s.halted
  · simp [withVideo_eq_next, andThen_eq_next, and_comm]
  · simp [and_comm, eq_comm]

/-- A step that stops is a CPU that is not halted and stops in the fetch or in the instruction fetched. -/
theorem step_eq_fault {s : State} {f : Fault} :
    step s = .fault f ↔ s.halted = false ∧
      (s.fetchInstr = .error f ∨ ∃ i, s.fetchInstr = .ok i ∧ exec i s = .fault f) := by
  unfold step
  cases h : s.halted
  · simp [withVideo_eq_fault, andThen_eq_fault]
  · simp

/-- A run of one step more begins with that step. -/
theorem run_succ_of_next {k : Nat} {s t : State} (h : step s = .next t) : core.run (k + 1) s = core.run k t := by
  simp only [Host.Core.run, core, h]

end Sys2Proof.Machine
end

