-- ==== Sys2Proof/Laws/Exec.lean ====
section
/-! SUPPORT. What a store can change, and, once for all instructions, every next state that `exec` can answer:
lemmas about all instructions follow by cases on `Effect`, without unfolding a meaning. -/

namespace Sys2Proof.Machine

/-! ### Stores -/

/-- What no store changes: everything but SRAM, the record of stored bytes, the write-target frame buffer and
the device bytes. -/
structure StoreFrame (s t : State) : Prop where
  cfg : t.cfg = s.cfg
  regs : t.regs = s.regs
  pc : t.pc = s.pc
  sp : t.sp = s.sp
  flags : t.flags = s.flags
  callStack : t.callStack = s.callStack
  displayFB : t.displayFB = s.displayFB
  shown : t.fb s.displayFB = s.fb s.displayFB
  spriteSheetPtr : t.spriteSheetPtr = s.spriteSheetPtr
  spriteTablePtr : t.spriteTablePtr = s.spriteTablePtr
  spriteCount : t.spriteCount = s.spriteCount
  halted : t.halted = s.halted
  vsyncWait : t.vsyncWait = s.vsyncWait
  videoTime : t.videoTime = s.videoTime
  events : t.events = s.events
  draws : t.draws = s.draws

theorem store8_frame {s t : State} {a : Word} {b : Byte} (h : s.store8 a b = .ok t) : StoreFrame s t := by
  rcases State.store8_eq_ok.1 h with ⟨_, rfl⟩ | ⟨_, rfl⟩ | ⟨_, h⟩
  · constructor <;> rfl
  · constructor <;> try rfl
    exact State.fb_setFb_of_ne _ _ _ _ s.writeTarget_ne.symm
  · rcases State.storeDevice_eq_ok h with ⟨_, rfl⟩ | ⟨_, _, rfl⟩ | ⟨k, _, rfl⟩ | rfl <;> constructor <;> rfl

theorem store16_frame {s t : State} {a : Word} {v : Half} (h : s.store16 a v = .ok t) : StoreFrame s t := by
  obtain ⟨_, rfl⟩ := State.store16_eq_ok.1 h
  constructor <;> rfl

theorem store32_frame {s t : State} {a v : Word} (h : s.store32 a v = .ok t) : StoreFrame s t := by
  obtain ⟨_, rfl⟩ := State.store32_eq_ok.1 h
  constructor <;> rfl

theorem storeSlot_frame {s t : State} {a v : Word} (h : s.storeSlot a v = .ok t) : StoreFrame s t := by
  unfold State.storeSlot at h
  split at h
  · exact store32_frame h
  · exact store16_frame h

/-- A load of a stack slot writes one register. -/
theorem loadSlot_eq_ok {s t : State} {rA : Reg} {a : Word} (h : s.loadSlot rA a = .ok t) :
    ∃ v, t = s.setReg rA v := by
  unfold State.loadSlot at h
  split at h
  · cases e : s.load32 a <;> rw [e] at h <;> simp [Except.map] at h
    exact ⟨_, h.symm⟩
  · cases e : s.load16 a <;> rw [e] at h <;> simp [Except.map] at h
    obtain ⟨w, hw, _⟩ := s.writeLow16_eq rA ‹_›
    exact ⟨w, by rw [← h, hw]⟩

/-! ### Instructions -/

/-- One of the six call forms. -/
def IsCall (i : Instr) : Prop :=
  ∃ rA rB a, i ∈ [Instr.callR rA, .callifR rA rB, .callifnotR rA rB, .callI a, .callifI a rB, .callifnotI a rB]

/-- The address after an instruction at pc. -/
def State.after (s : State) (i : Instr) : Word := s.nextPc (i.words s.cfg.branchRegLen)

/-- What an instruction can do to a state when it answers a next one. -/
inductive Effect (s : State) : Instr → State → Prop where
  | write (i : Instr) (rA : Reg) (v : Word) : Effect s i ((s.setReg rA v).setPc (s.after i))
  | writeFree (i : Instr) (rA : Reg) : Effect s i ((s.draw.setReg rA s.freeWord).setPc (s.after i))
  | goOn (i : Instr) : Effect s i (s.setPc (s.after i))
  | jump (i : Instr) (v : Word) : Effect s i (s.setPc (branchTarget v))
  | call (i : Instr) (v : Word) : IsCall i →
      Effect s i ((s.setCallStack (s.callStack ++ [s.after i])).setPc (branchTarget v))
  | ret (v : Word) : s.callStack.getLast? = some v →
      Effect s .ret ((s.setCallStack s.callStack.dropLast).setPc v)
  | halt : Effect s .halt s.setHalted
  | stB (rA rB : Reg) (t : State) : s.store8 (s.reg rA) ((s.reg rB).extractLsb' 0 8) = .ok t →
      Effect s (.stB rA rB) (t.setPc (s.after (.stB rA rB)))
  | stW (rA rB : Reg) (t : State) : s.store16 (s.reg rA) ((s.reg rB).extractLsb' 0 16) = .ok t →
      Effect s (.stW rA rB) (t.setPc (s.after (.stW rA rB)))
  | push (rA : Reg) (t : State) : s.storeSlot s.sp (s.reg rA) = .ok t →
      Effect s (.push rA) ((t.setSp (s.sp - s.slotSize)).setPc (s.after (.push rA)))
  | pop (rA : Reg) (v : Word) :
      Effect s (.pop rA) (((s.setReg rA v).setSp (s.sp + s.slotSize)).setPc (s.after (.pop rA)))
  | cmp (rA rB : Reg) (f : FlagBits) : Effect s (.cmp rA rB) ((s.setFlags f).setPc (s.after (.cmp rA rB)))
  | holdSync : s.verticalSync = false → Effect s .vsync s.holdSync
  | liftSync : s.verticalSync = true → Effect s .vsync (s.liftSync.setPc (s.after .vsync))
  | input (rA : Reg) (port : Half) :
      Effect s (.input rA port) (((s.draw.emit (.input port s.freeWord)).setReg rA s.freeWord).setPc
        (s.after (.input rA port)))
  | output (rA : Reg) (port : Half) :
      Effect s (.output rA port) ((s.emit (.output port (s.reg rA))).setPc (s.after (.output rA port)))
  | fsel (rA : Reg) : Effect s (.fsel rA)
      (((s.selectFrame (s.reg rA)).emit (.frameSelect ((s.reg rA).extractLsb' 0 1))).setPc (s.after (.fsel rA)))
  | clf (rA : Reg) : Effect s (.clf rA)
      ((s.setFb s.writeTarget ((s.fb s.writeTarget).clear ((s.reg rA).extractLsb' 0 8))).setPc (s.after (.clf rA)))
  | sprite (rA rB : Reg) : Effect s (.sprite rA rB) (((s.kickSprites (s.reg rA) (s.reg rB)).emit
      (.spriteKick (s.reg rA) (s.reg rB) s.spriteSheetPtr)).setPc (s.after (.sprite rA rB)))
  | spritesheet (rA : Reg) :
      Effect s (.spritesheet rA) ((s.setSheet (s.reg rA)).setPc (s.after (.spritesheet rA)))

theorem effect_writeLow16 (s : State) (i : Instr) (rA : Reg) (v : Half) :
    Effect s i ((s.writeLow16 rA v).setPc (s.after i)) := by
  obtain ⟨w, hw, _⟩ := s.writeLow16_eq rA v
  rw [hw]
  exact .write _ _ _

theorem effect_setRegOrFree (s : State) (i : Instr) (rA : Reg) (v : Option Word) :
    Effect s i ((s.setRegOrFree rA v).setPc (s.after i)) := by
  rcases s.setRegOrFree_cases rA v with ⟨w, _, h⟩ | ⟨_, h⟩ <;> rw [h]
  · exact .write _ _ _
  · exact .writeFree _ _

theorem effect_jumpIf {s t : State} {i : Instr} {sense : Bool} {c v : Word}
    (h : s.jumpIf sense c v (s.after i) = .next t) : Effect s i t := by
  simp only [State.jumpIf, andThen_eq_next] at h
  obtain ⟨tk, _, h⟩ := h
  split_ifs at h <;> injection h with h <;> subst h
  · exact .jump _ _
  · exact .goOn _

theorem effect_callTo {s t : State} {i : Instr} {v : Word} (hi : IsCall i)
    (h : s.callTo v (s.after i) = .next t) : Effect s i t := by
  simp only [State.callTo, andThen_eq_next, State.callPush_eq_ok, State.jumpTo] at h
  obtain ⟨s', ⟨_, rfl⟩, h⟩ := h
  injection h with h
  subst h
  exact .call _ _ hi

theorem effect_callIf {s t : State} {i : Instr} {sense : Bool} {c v : Word} (hi : IsCall i)
    (h : s.callIf sense c v (s.after i) = .next t) : Effect s i t := by
  simp only [State.callIf, andThen_eq_next] at h
  obtain ⟨tk, _, h⟩ := h
  split_ifs at h
  · exact effect_callTo hi h
  · injection h with h
    subst h
    exact .goOn _

/-- The next pc after a store is that after the state before it. -/
theorem StoreFrame.nextPc {s t : State} (h : StoreFrame s t) (n : Nat) : t.nextPc n = s.nextPc n := by
  simp [State.nextPc, h.pc]

theorem execVsync_effect {s t : State} (h : execVsync s = .next t) : Effect s .vsync t := by
  unfold execVsync at h
  injection h with h
  subst h
  split_ifs with hs
  · exact .liftSync hs
  · exact .holdSync (by simpa using hs)

/-- EVERYTHING AN INSTRUCTION CAN DO when it answers a next state. -/
theorem exec_effect {i : Instr} {s t : State} (h : exec i s = .next t) : Effect s i t := by
  cases i
  case jmpifR => exact effect_jumpIf h
  case jmpifnotR => exact effect_jumpIf h
  case jmpifI => exact effect_jumpIf h
  case jmpifnotI => exact effect_jumpIf h
  case jmpR => injection h with h; subst h; exact .jump _ _
  case jmpI => injection h with h; subst h; exact .jump _ _
  case callR r => exact effect_callTo ⟨r, 0, 0, by simp⟩ h
  case callI a => exact effect_callTo ⟨0, 0, a, by simp⟩ h
  case callifR a b => exact effect_callIf ⟨a, b, 0, by simp⟩ h
  case callifnotR a b => exact effect_callIf ⟨a, b, 0, by simp⟩ h
  case callifI a b => exact effect_callIf ⟨0, b, a, by simp⟩ h
  case callifnotI a b => exact effect_callIf ⟨0, b, a, by simp⟩ h
  case idiv rA rB =>
    have e := effect_setRegOrFree s (.idiv rA rB) rA (quotient s.cfg.divFn (s.reg rA) (s.reg rB))
    injection h with h; subst h
    rwa [State.advance_eq, State.setRegOrFree_nextPc]
  case imod rA rB =>
    have e := effect_setRegOrFree s (.imod rA rB) rA (remainder s.cfg.modFn (s.reg rA) (s.reg rB))
    injection h with h; subst h
    rwa [State.advance_eq, State.setRegOrFree_nextPc]
  case bsl rA rB =>
    have e := effect_setRegOrFree s (.bsl rA rB) rA (shiftLeft (s.reg rA) (s.reg rB))
    injection h with h; subst h
    rwa [State.advance_eq, State.setRegOrFree_nextPc]
  case bsr rA rB =>
    have e := effect_setRegOrFree s (.bsr rA rB) rA (shiftRight s.cfg.bsrFn (s.reg rA) (s.reg rB))
    injection h with h; subst h
    rwa [State.advance_eq, State.setRegOrFree_nextPc]
  case cpW rA rB =>
    have e := effect_writeLow16 s (.cpW rA rB) rA ((s.reg rB).extractLsb' 0 16)
    injection h with h; subst h
    rwa [State.advance_eq, State.writeLow16_nextPc]
  case ldWImm rA c =>
    have e := effect_writeLow16 s (.ldWImm rA c) rA c
    injection h with h; subst h
    rwa [State.advance_eq, State.writeLow16_nextPc]
  case ldWMem rA rB =>
    obtain ⟨v, _, h⟩ := andThen_eq_next.1 h
    have e := effect_writeLow16 s (.ldWMem rA rB) rA v
    injection h with h; subst h
    rwa [State.advance_eq, State.writeLow16_nextPc]
  case ldBMem =>
    obtain ⟨v, _, h⟩ := andThen_eq_next.1 h
    injection h with h; subst h; exact .write _ _ _
  case ldDMem =>
    obtain ⟨v, _, h⟩ := andThen_eq_next.1 h
    injection h with h; subst h; exact .write _ _ _
  case stW =>
    obtain ⟨v, e, h⟩ := andThen_eq_next.1 h
    injection h with h; subst h
    rw [State.advance_eq, (store16_frame e).nextPc]
    exact .stW _ _ _ e
  case stB =>
    obtain ⟨v, e, h⟩ := andThen_eq_next.1 h
    injection h with h; subst h
    rw [State.advance_eq, (store8_frame e).nextPc]
    exact .stB _ _ _ e
  case push =>
    obtain ⟨v, e, h⟩ := andThen_eq_next.1 h
    injection h with h; subst h
    rw [State.advance_eq, State.setSp_nextPc, (storeSlot_frame e).nextPc]
    exact .push _ _ e
  case pop =>
    obtain ⟨v, e, h⟩ := andThen_eq_next.1 h
    obtain ⟨w, rfl⟩ := loadSlot_eq_ok e
    injection h with h; subst h; exact .pop _ _
  case ret =>
    obtain ⟨⟨v, u⟩, e, h⟩ := andThen_eq_next.1 h
    obtain ⟨e1, rfl⟩ := State.callPop_eq_ok.1 e
    injection h with h; subst h; exact .ret _ e1
  case halt => injection h with h; subst h; exact .halt
  case cmp => injection h with h; subst h; exact .cmp _ _ _
  case vsync => exact execVsync_effect h
  case input => injection h with h; subst h; exact .input _ _
  case output => injection h with h; subst h; exact .output _ _
  case fsel => injection h with h; subst h; exact .fsel _
  case clf => injection h with h; subst h; exact .clf _
  case sprite => injection h with h; subst h; exact .sprite _ _
  case spritesheet => injection h with h; subst h; exact .spritesheet _
  all_goals (injection h with h; subst h; exact .write _ _ _)

end Sys2Proof.Machine
end

