-- ==== Sys2Proof/Laws/Canonical.lean ====
section
/-! SUPPORT. Each operation that writes memory keeps the whole state's memory in canonical form. -/

namespace Sys2Proof.Machine

/-- The canonical form depends on SRAM, the frame buffers and the record of stored bytes alone. -/
theorem State.Canonical.of_same {s t : State} (h : s.Canonical) (sram : t.sram = s.sram) (fb0 : t.fb0 = s.fb0)
    (fb1 : t.fb1 = s.fb1) (stored : t.stored = s.stored) : t.Canonical := by
  constructor
  · rw [sram]; exact h.sram
  · rw [fb0]; exact h.fb0
  · rw [fb1]; exact h.fb1
  · rw [stored]; exact h.storedRising
  · rw [sram, stored]; exact h.storedHeld

theorem State.Canonical.fb {s : State} (h : s.Canonical) (k : BitVec 1) : (s.fb k).wf := by
  unfold State.fb
  split_ifs
  · exact h.fb0
  · exact h.fb1

theorem State.Canonical.pokeByte {s : State} (h : s.Canonical) (a : Word) (b : Byte) (ha : a.toNat < sramSize) :
    (s.pokeByte a b).Canonical := by
  constructor
  · exact Memory.wf_put _ _ _ h.sram _ ha _
  · exact h.fb0
  · exact h.fb1
  · exact pairwise_insertAddress _ h.storedRising _
  · intro c hc
    simp only [State.pokeByte_sram, Memory.read_putSram]
    split_ifs with e
    · rfl
    · exact h.storedHeld c (((mem_insertAddress _ _ _).1 hc).resolve_left e)

theorem State.Canonical.setFb {s : State} (h : s.Canonical) (k : BitVec 1) (f : FrameBuffer) (hf : f.wf) :
    (s.setFb k f).Canonical := by
  constructor
  · exact h.sram
  · show (if k = 0#1 then f else s.fb0).wf
    split_ifs
    · exact hf
    · exact h.fb0
  · show (if k = 0#1 then s.fb1 else f).wf
    split_ifs
    · exact h.fb1
    · exact hf
  · exact h.storedRising
  · exact h.storedHeld

theorem State.Canonical.store8 {s t : State} {a : Word} {b : Byte} (h : s.Canonical)
    (e : s.store8 a b = .ok t) : t.Canonical := by
  rcases State.store8_eq_ok.1 e with ⟨r, rfl⟩ | ⟨r, rfl⟩ | ⟨_, e⟩
  · exact h.pokeByte _ _ (region_eq_sram.1 r)
  · have r := region_eq_vram.1 r
    exact h.setFb _ _ (FrameBuffer.wf_write _ (h.fb _) _ (by show _ < 0xC000; omega) _)
  · rcases State.storeDevice_eq_ok e with ⟨_, rfl⟩ | ⟨_, _, rfl⟩ | ⟨k, _, rfl⟩ | rfl <;>
      exact h.of_same rfl rfl rfl rfl

theorem State.Canonical.store16 {s t : State} {a : Word} {v : Half} (h : s.Canonical)
    (e : s.store16 a v = .ok t) : t.Canonical := by
  obtain ⟨f, rfl⟩ := State.store16_eq_ok.1 e
  obtain ⟨r, _⟩ := (storeFault_eq_none (by decide)).1 f
  have r0 := region_eq_sram.1 (r a (mem_span.2 ⟨0, by decide, by simp⟩))
  have r1 := region_eq_sram.1 (r (a + 1#32) (mem_span.2 ⟨1, by decide, rfl⟩))
  exact (h.pokeByte _ _ r0).pokeByte _ _ r1

theorem State.Canonical.store32 {s t : State} {a v : Word} (h : s.Canonical) (e : s.store32 a v = .ok t) :
    t.Canonical := by
  obtain ⟨f, rfl⟩ := State.store32_eq_ok.1 e
  obtain ⟨r, _⟩ := (storeFault_eq_none (by decide)).1 f
  have r0 := region_eq_sram.1 (r a (mem_span.2 ⟨0, by decide, by simp⟩))
  have r1 := region_eq_sram.1 (r (a + 1#32) (mem_span.2 ⟨1, by decide, rfl⟩))
  have r2 := region_eq_sram.1 (r (a + 2#32) (mem_span.2 ⟨2, by decide, rfl⟩))
  have r3 := region_eq_sram.1 (r (a + 2#32 + 1#32) (mem_span.2 ⟨3, by decide, by rw [BitVec.add_assoc]; rfl⟩))
  exact (((h.pokeByte _ _ r0).pokeByte _ _ r1).pokeByte _ _ r2).pokeByte _ _ r3

theorem State.Canonical.storeSlot {s t : State} {a v : Word} (h : s.Canonical) (e : s.storeSlot a v = .ok t) :
    t.Canonical := by
  unfold State.storeSlot at e
  split at e
  · exact h.store32 e
  · exact h.store16 e

end Sys2Proof.Machine
end

