-- ==== Sys2Proof/Laws/Fetch.lean ====
section
/-! SUPPORT. Lengths and addresses of fetched instructions: the first word alone fixes the length, and an
instruction that is fetched lies in SRAM at an even address. -/

namespace Sys2Proof.Machine

/-! ### The length -/

theorem decodeBranch_words (w w1 w2 : Half) (n : RegBranchLen) :
    (decodeBranch w w1 w2).map (Instr.words n) = (decodeBranch w 0#16 0#16).map (Instr.words n) := by
  unfold decodeBranch
  generalize (field w 14 2).toNat = p
  generalize (field w 4 2).toNat = q
  dsimp only
  split
  · split <;> simp only [Except.map, Instr.words]
  · split <;> simp only [Except.map, Instr.words]
  · simp only [Except.map]
  · split <;> simp only [Except.map, Instr.words]

theorem decodeMov_words (w w1 w2 : Half) (n : RegBranchLen) :
    (decodeMov w w1 w2).map (Instr.words n) = (decodeMov w 0#16 0#16).map (Instr.words n) := by
  unfold decodeMov
  generalize (field w 4 4).toNat = p
  dsimp only
  split <;> simp only [Except.map, Instr.words]

theorem decodeIo_words (w w1 : Half) (n : RegBranchLen) :
    (decodeIo w w1).map (Instr.words n) = (decodeIo w 0#16).map (Instr.words n) := by
  unfold decodeIo
  generalize (field w 4 3).toNat = p
  dsimp only
  split <;> simp only [Except.map, Instr.words]

/-- The length, and whether there is an instruction at all, depend on the first word alone (30_encoding.md
R72). -/
theorem decodeWords_words (w w1 w2 : Half) (n : RegBranchLen) :
    (decodeWords w w1 w2).map (Instr.words n) = (decodeWords w 0#16 0#16).map (Instr.words n) := by
  unfold decodeWords
  generalize (field w 0 4).toNat = k
  split
  · rfl
  · exact decodeBranch_words _ _ _ _
  · rfl
  · exact decodeMov_words _ _ _ _
  · rfl
  · rfl
  · rfl
  · rfl
  · exact decodeIo_words _ _ _
  · rfl

theorem decodeFetched_eq_ok {w w1 w2 : Half} {i : Instr} :
    decodeFetched w w1 w2 = .ok i ↔ decodeWords w w1 w2 = .ok i := by
  unfold decodeFetched
  cases decodeWords w w1 w2 <;> simp

theorem words_bounds (i : Instr) (n : RegBranchLen) : 1 ≤ i.words n ∧ i.words n ≤ 3 := by
  cases i <;> cases n <;> simp [Instr.words, RegBranchLen.words]

/-! ### Addresses -/

theorem isOdd_eq (a : Word) : isOdd a = decide (a.toNat % 2 = 1) := by
  simp [isOdd, BitVec.getLsbD, Nat.testBit_zero]

theorem isOdd_add_even {a b : Word} (hb : isOdd b = false) : isOdd (a + b) = isOdd a := by
  rw [isOdd_eq] at *
  rw [isOdd_eq]
  simp only [decide_eq_false_iff_not] at hb
  simp only [BitVec.toNat_add, decide_eq_decide]
  omega

theorem isOdd_sub_even {a b : Word} (hb : isOdd b = false) : isOdd (a - b) = isOdd a := by
  have h := isOdd_add_even (a := a - b) hb
  rw [← h, BitVec.sub_add_cancel]

theorem isOdd_slot (z : StackSlot) : isOdd (BitVec.ofNat 32 z.bytes) = false := by cases z <;> rfl

/-- A branch goes to an address below 0x00080000 of the operand's parity (41_branch.md R112). -/
theorem branchTarget_range (v : Word) : isOdd (branchTarget v) = isOdd v ∧ (branchTarget v).toNat < 0x80000 := by
  refine ⟨by simp [isOdd, branchTarget], ?_⟩
  simp [branchTarget, BitVec.extractLsb'_toNat]
  omega

theorem fetch16_range {s : State} {a : Word} {w : Half} (h : s.fetch16 a = .ok w) :
    isOdd a = false ∧ a.toNat + 2 ≤ 0x80000 := by
  obtain ⟨h1, h2, _⟩ := State.fetch16_eq_ok.1 h
  have e0 := region_eq_sram.1 (h2 a (mem_span.2 ⟨0, by decide, by simp⟩))
  have e1 := region_eq_sram.1 (h2 (a + 1#32) (mem_span.2 ⟨1, by decide, rfl⟩))
  exact ⟨h1, by bv_omega⟩

theorem extraWord_eq_ok {s : State} {length k : Nat} {w : Half} :
    s.extraWord length k = .ok w ↔
      (k < length ∧ s.fetch16 (s.nextPc k) = .ok w) ∨ (length ≤ k ∧ w = 0#16) := by
  unfold State.extraWord
  split_ifs with h
  · simp [h]
  · have : length ≤ k := by omega
    simp only [h, this, false_and, true_and, false_or, Except.ok.injEq]
    exact eq_comm

/-- What it takes to fetch an instruction: its first word, and the words after it that it has. -/
theorem fetchInstr_eq_ok {s : State} {i : Instr} (h : s.fetchInstr = .ok i) :
    ∃ w w1 w2, s.fetch16 s.pc = .ok w ∧ s.extraWord (i.words s.cfg.branchRegLen) 1 = .ok w1 ∧
      s.extraWord (i.words s.cfg.branchRegLen) 2 = .ok w2 ∧ decodeWords w w1 w2 = .ok i := by
  simp only [State.fetchInstr, bind, Except.bind] at h
  split at h
  · cases h
  rename_i w hw
  split at h
  · cases h
  rename_i j hj
  split at h
  · cases h
  rename_i w1 hw1
  split at h
  · cases h
  rename_i w2 hw2
  rw [decodeFetched_eq_ok] at hj h
  have hL := decodeWords_words w w1 w2 s.cfg.branchRegLen
  rw [hj, h] at hL
  simp only [Except.map, Except.ok.injEq] at hL
  rw [← hL] at hw1 hw2
  exact ⟨w, w1, w2, hw, hw1, hw2, h⟩

/-- A fetched instruction starts at an even address and lies in SRAM. -/
theorem fetchInstr_range {s : State} {i : Instr} (h : s.fetchInstr = .ok i) :
    isOdd s.pc = false ∧ s.pc.toNat + 2 * i.words s.cfg.branchRegLen ≤ 0x80000 := by
  obtain ⟨w, w1, w2, hw, hw1, hw2, _⟩ := fetchInstr_eq_ok h
  obtain ⟨p0, p1⟩ := fetch16_range hw
  refine ⟨p0, ?_⟩
  have hb := words_bounds i s.cfg.branchRegLen
  rcases extraWord_eq_ok.1 hw1 with ⟨h1, e1⟩ | ⟨h1, _⟩
  · have a1 := (fetch16_range e1).2
    simp only [State.nextPc] at a1
    rcases extraWord_eq_ok.1 hw2 with ⟨h2, e2⟩ | ⟨h2, _⟩
    · have a2 := (fetch16_range e2).2
      simp only [State.nextPc] at a2
      bv_omega
    · bv_omega
  · omega

/-- The address after a fetched instruction is even and at most 0x00080000. -/
theorem nextPc_range {s : State} {i : Instr} (h : s.fetchInstr = .ok i) :
    isOdd (s.nextPc (i.words s.cfg.branchRegLen)) = false ∧
      (s.nextPc (i.words s.cfg.branchRegLen)).toNat ≤ 0x80000 := by
  obtain ⟨h1, h2⟩ := fetchInstr_range h
  have hb := words_bounds i s.cfg.branchRegLen
  have even : ∀ n ≤ 3, isOdd (BitVec.ofNat 32 (2 * n)) = false := by decide
  refine ⟨?_, ?_⟩
  · unfold State.nextPc
    rw [isOdd_add_even (even _ hb.2), h1]
  · unfold State.nextPc
    bv_omega

end Sys2Proof.Machine
end

