-- ==== Sys2Proof/Laws/PerInstr.lean ====
section
/-! SUPPORT. The family EncodeLength: the encoder writes as many words as the instruction is long
(30_encoding.md R72), one lemma per constructor. -/

/-- `encode` writes `Instr.words` words, for either length of the register-mode branches. -/
def Sys2Proof.Laws.EncodeLength.Statement (i : Sys2Proof.Instr) : Prop :=
  ∀ n : Sys2Proof.RegBranchLen, (Sys2Proof.encode n i).length = i.words n

theorem Sys2Proof.Laws.EncodeLength.or (rA rB : Sys2Proof.Reg) :
    Sys2Proof.Laws.EncodeLength.Statement (Sys2Proof.Instr.or rA rB) := fun _ => rfl

theorem Sys2Proof.Laws.EncodeLength.and (rA rB : Sys2Proof.Reg) :
    Sys2Proof.Laws.EncodeLength.Statement (Sys2Proof.Instr.and rA rB) := fun _ => rfl

theorem Sys2Proof.Laws.EncodeLength.xor (rA rB : Sys2Proof.Reg) :
    Sys2Proof.Laws.EncodeLength.Statement (Sys2Proof.Instr.xor rA rB) := fun _ => rfl

theorem Sys2Proof.Laws.EncodeLength.not (rA rB : Sys2Proof.Reg) :
    Sys2Proof.Laws.EncodeLength.Statement (Sys2Proof.Instr.not rA rB) := fun _ => rfl

theorem Sys2Proof.Laws.EncodeLength.bsl (rA rB : Sys2Proof.Reg) :
    Sys2Proof.Laws.EncodeLength.Statement (Sys2Proof.Instr.bsl rA rB) := fun _ => rfl

theorem Sys2Proof.Laws.EncodeLength.bsr (rA rB : Sys2Proof.Reg) :
    Sys2Proof.Laws.EncodeLength.Statement (Sys2Proof.Instr.bsr rA rB) := fun _ => rfl

theorem Sys2Proof.Laws.EncodeLength.bswap (rA rB : Sys2Proof.Reg) :
    Sys2Proof.Laws.EncodeLength.Statement (Sys2Proof.Instr.bswap rA rB) := fun _ => rfl

theorem Sys2Proof.Laws.EncodeLength.jmpR (rA : Sys2Proof.Reg) :
    Sys2Proof.Laws.EncodeLength.Statement (Sys2Proof.Instr.jmpR rA) := fun n => by cases n <;> rfl

theorem Sys2Proof.Laws.EncodeLength.jmpifR (rA rB : Sys2Proof.Reg) :
    Sys2Proof.Laws.EncodeLength.Statement (Sys2Proof.Instr.jmpifR rA rB) := fun n => by cases n <;> rfl

theorem Sys2Proof.Laws.EncodeLength.jmpifnotR (rA rB : Sys2Proof.Reg) :
    Sys2Proof.Laws.EncodeLength.Statement (Sys2Proof.Instr.jmpifnotR rA rB) := fun n => by cases n <;> rfl

theorem Sys2Proof.Laws.EncodeLength.callR (rA : Sys2Proof.Reg) :
    Sys2Proof.Laws.EncodeLength.Statement (Sys2Proof.Instr.callR rA) := fun n => by cases n <;> rfl

theorem Sys2Proof.Laws.EncodeLength.callifR (rA rB : Sys2Proof.Reg) :
    Sys2Proof.Laws.EncodeLength.Statement (Sys2Proof.Instr.callifR rA rB) := fun n => by cases n <;> rfl

theorem Sys2Proof.Laws.EncodeLength.callifnotR (rA rB : Sys2Proof.Reg) :
    Sys2Proof.Laws.EncodeLength.Statement (Sys2Proof.Instr.callifnotR rA rB) := fun n => by cases n <;> rfl

theorem Sys2Proof.Laws.EncodeLength.jmpI (address : Sys2Proof.Word) :
    Sys2Proof.Laws.EncodeLength.Statement (Sys2Proof.Instr.jmpI address) := fun _ => rfl

theorem Sys2Proof.Laws.EncodeLength.jmpifI (address : Sys2Proof.Word) (rB : Sys2Proof.Reg) :
    Sys2Proof.Laws.EncodeLength.Statement (Sys2Proof.Instr.jmpifI address rB) := fun _ => rfl

theorem Sys2Proof.Laws.EncodeLength.jmpifnotI (address : Sys2Proof.Word) (rB : Sys2Proof.Reg) :
    Sys2Proof.Laws.EncodeLength.Statement (Sys2Proof.Instr.jmpifnotI address rB) := fun _ => rfl

theorem Sys2Proof.Laws.EncodeLength.callI (address : Sys2Proof.Word) :
    Sys2Proof.Laws.EncodeLength.Statement (Sys2Proof.Instr.callI address) := fun _ => rfl

theorem Sys2Proof.Laws.EncodeLength.callifI (address : Sys2Proof.Word) (rB : Sys2Proof.Reg) :
    Sys2Proof.Laws.EncodeLength.Statement (Sys2Proof.Instr.callifI address rB) := fun _ => rfl

theorem Sys2Proof.Laws.EncodeLength.callifnotI (address : Sys2Proof.Word) (rB : Sys2Proof.Reg) :
    Sys2Proof.Laws.EncodeLength.Statement (Sys2Proof.Instr.callifnotI address rB) := fun _ => rfl

theorem Sys2Proof.Laws.EncodeLength.iadd (rA rB : Sys2Proof.Reg) :
    Sys2Proof.Laws.EncodeLength.Statement (Sys2Proof.Instr.iadd rA rB) := fun _ => rfl

theorem Sys2Proof.Laws.EncodeLength.isub (rA rB : Sys2Proof.Reg) :
    Sys2Proof.Laws.EncodeLength.Statement (Sys2Proof.Instr.isub rA rB) := fun _ => rfl

theorem Sys2Proof.Laws.EncodeLength.imul (rA rB : Sys2Proof.Reg) :
    Sys2Proof.Laws.EncodeLength.Statement (Sys2Proof.Instr.imul rA rB) := fun _ => rfl

theorem Sys2Proof.Laws.EncodeLength.idiv (rA rB : Sys2Proof.Reg) :
    Sys2Proof.Laws.EncodeLength.Statement (Sys2Proof.Instr.idiv rA rB) := fun _ => rfl

theorem Sys2Proof.Laws.EncodeLength.imod (rA rB : Sys2Proof.Reg) :
    Sys2Proof.Laws.EncodeLength.Statement (Sys2Proof.Instr.imod rA rB) := fun _ => rfl

theorem Sys2Proof.Laws.EncodeLength.ineg (rA : Sys2Proof.Reg) :
    Sys2Proof.Laws.EncodeLength.Statement (Sys2Proof.Instr.ineg rA) := fun _ => rfl

theorem Sys2Proof.Laws.EncodeLength.inc (rA : Sys2Proof.Reg) :
    Sys2Proof.Laws.EncodeLength.Statement (Sys2Proof.Instr.inc rA) := fun _ => rfl

theorem Sys2Proof.Laws.EncodeLength.dec (rA : Sys2Proof.Reg) :
    Sys2Proof.Laws.EncodeLength.Statement (Sys2Proof.Instr.dec rA) := fun _ => rfl

theorem Sys2Proof.Laws.EncodeLength.stW (rA rB : Sys2Proof.Reg) :
    Sys2Proof.Laws.EncodeLength.Statement (Sys2Proof.Instr.stW rA rB) := fun _ => rfl

theorem Sys2Proof.Laws.EncodeLength.ldWMem (rA rB : Sys2Proof.Reg) :
    Sys2Proof.Laws.EncodeLength.Statement (Sys2Proof.Instr.ldWMem rA rB) := fun _ => rfl

theorem Sys2Proof.Laws.EncodeLength.cpW (rA rB : Sys2Proof.Reg) :
    Sys2Proof.Laws.EncodeLength.Statement (Sys2Proof.Instr.cpW rA rB) := fun _ => rfl

theorem Sys2Proof.Laws.EncodeLength.ldWImm (rA : Sys2Proof.Reg) (constant : Sys2Proof.Half) :
    Sys2Proof.Laws.EncodeLength.Statement (Sys2Proof.Instr.ldWImm rA constant) := fun _ => rfl

theorem Sys2Proof.Laws.EncodeLength.ldDImm (rA : Sys2Proof.Reg) (constant : Sys2Proof.Word) :
    Sys2Proof.Laws.EncodeLength.Statement (Sys2Proof.Instr.ldDImm rA constant) := fun _ => rfl

theorem Sys2Proof.Laws.EncodeLength.stB (rA rB : Sys2Proof.Reg) :
    Sys2Proof.Laws.EncodeLength.Statement (Sys2Proof.Instr.stB rA rB) := fun _ => rfl

theorem Sys2Proof.Laws.EncodeLength.ldBMem (rA rB : Sys2Proof.Reg) :
    Sys2Proof.Laws.EncodeLength.Statement (Sys2Proof.Instr.ldBMem rA rB) := fun _ => rfl

theorem Sys2Proof.Laws.EncodeLength.ldBImm (rA : Sys2Proof.Reg) (constant : Sys2Proof.Half) :
    Sys2Proof.Laws.EncodeLength.Statement (Sys2Proof.Instr.ldBImm rA constant) := fun _ => rfl

theorem Sys2Proof.Laws.EncodeLength.ldDMem (rA rB : Sys2Proof.Reg) :
    Sys2Proof.Laws.EncodeLength.Statement (Sys2Proof.Instr.ldDMem rA rB) := fun _ => rfl

theorem Sys2Proof.Laws.EncodeLength.ret :
    Sys2Proof.Laws.EncodeLength.Statement Sys2Proof.Instr.ret := fun _ => rfl

theorem Sys2Proof.Laws.EncodeLength.halt :
    Sys2Proof.Laws.EncodeLength.Statement Sys2Proof.Instr.halt := fun _ => rfl

theorem Sys2Proof.Laws.EncodeLength.push (rA : Sys2Proof.Reg) :
    Sys2Proof.Laws.EncodeLength.Statement (Sys2Proof.Instr.push rA) := fun _ => rfl

theorem Sys2Proof.Laws.EncodeLength.pop (rA : Sys2Proof.Reg) :
    Sys2Proof.Laws.EncodeLength.Statement (Sys2Proof.Instr.pop rA) := fun _ => rfl

theorem Sys2Proof.Laws.EncodeLength.test (rA : Sys2Proof.Reg) (mask : Sys2Proof.FlagBits) :
    Sys2Proof.Laws.EncodeLength.Statement (Sys2Proof.Instr.test rA mask) := fun _ => rfl

theorem Sys2Proof.Laws.EncodeLength.cmp (rA rB : Sys2Proof.Reg) :
    Sys2Proof.Laws.EncodeLength.Statement (Sys2Proof.Instr.cmp rA rB) := fun _ => rfl

theorem Sys2Proof.Laws.EncodeLength.vsync :
    Sys2Proof.Laws.EncodeLength.Statement Sys2Proof.Instr.vsync := fun _ => rfl

theorem Sys2Proof.Laws.EncodeLength.input (rA : Sys2Proof.Reg) (port : Sys2Proof.Half) :
    Sys2Proof.Laws.EncodeLength.Statement (Sys2Proof.Instr.input rA port) := fun _ => rfl

theorem Sys2Proof.Laws.EncodeLength.output (rA : Sys2Proof.Reg) (port : Sys2Proof.Half) :
    Sys2Proof.Laws.EncodeLength.Statement (Sys2Proof.Instr.output rA port) := fun _ => rfl

theorem Sys2Proof.Laws.EncodeLength.fsel (rA : Sys2Proof.Reg) :
    Sys2Proof.Laws.EncodeLength.Statement (Sys2Proof.Instr.fsel rA) := fun _ => rfl

theorem Sys2Proof.Laws.EncodeLength.clf (rA : Sys2Proof.Reg) :
    Sys2Proof.Laws.EncodeLength.Statement (Sys2Proof.Instr.clf rA) := fun _ => rfl

theorem Sys2Proof.Laws.EncodeLength.sprite (rA rB : Sys2Proof.Reg) :
    Sys2Proof.Laws.EncodeLength.Statement (Sys2Proof.Instr.sprite rA rB) := fun _ => rfl

theorem Sys2Proof.Laws.EncodeLength.spritesheet (rA : Sys2Proof.Reg) :
    Sys2Proof.Laws.EncodeLength.Statement (Sys2Proof.Instr.spritesheet rA) := fun _ => rfl
end

