-- ==== Sys2Proof/Machine/Video.lean ====
section
/-! DEFINITION. What the spec says of the picture's data: addresses and fields (20_memory.md R34,
90_conflicts.md C15, 47_io.md R185, R191). The picture itself is out of scope (00_scope.md R4 d). -/

namespace Sys2Proof.Machine

/-- `VRAM_ADDRESS` of the pixel at column `x`, row `y` (20_memory.md R34). -/
def vramAddress (x y : Byte) : Word := 0x8000#16 ++ (y ++ x : Half)

/-- Blue, bits 7:6 of a pixel (90_conflicts.md C15). -/
def pixelBlue (p : Byte) : BitVec 2 := p.extractLsb' 6 2

/-- Green, bits 5:3 of a pixel (90_conflicts.md C15). -/
def pixelGreen (p : Byte) : BitVec 3 := p.extractLsb' 3 3

/-- Red, bits 2:0 of a pixel (90_conflicts.md C15). -/
def pixelRed (p : Byte) : BitVec 3 := p.extractLsb' 0 3

/-- The byte the video output displays for offset `o`, if one is defined (47_io.md R185). -/
def State.displayedByte (s : State) (o : Nat) : Option Byte := (s.fb s.displayFB).read o

/-- The byte the video output displays around the picture (60_exceptions.md R212 a, 20_memory.md R35). -/
def State.displayedBorder (s : State) : Byte := s.borderColor

/-- Where sprite number `id` of the current sheet starts (47_io.md R191). -/
def State.spriteBitmap (s : State) (id : Nat) : Word := s.spriteSheetPtr + BitVec.ofNat 32 (256 * id)

end Sys2Proof.Machine
end

