-- ==== Sys2Proof/Tests/Slice0.lean ====
section
/-! SUPPORT. The model's own tests. Expected values are those of 95_test_vectors.md (its section numbers stand
in the headings) or worked out by hand from the rule named; the witnesses show states that meet the hypotheses
of the obligations, clause by clause. -/

open Sys2Proof Sys2Proof.Machine

/-- A state with other SRAM contents. -/
def Sys2Proof.Machine.State.withSram (s : State) (m : Memory) : State := { s with sram := m }

/-- A state with another call stack. -/
def Sys2Proof.Machine.State.withCalls (s : State) (cs : List Word) : State := { s with callStack := cs }

namespace Sys2Proof.Tests

/-! ### Helpers -/

/-- The next state of an answer. -/
def nextOf : Result → Option State
  | .next t => some t
  | _ => none

/-- The fault of an answer. -/
def faultOf : Result → Option Fault
  | .fault f => some f
  | _ => none

theorem next_of_isSome {r : Result} (h : (nextOf r).isSome = true) : ∃ t, r = .next t := by
  cases r with
  | next t => exact ⟨t, rfl⟩
  | fault f => cases h
  | refused f => cases h

/-- The reset state with r1 and r2 set. -/
def two (v1 v2 : Word) : State := (State.reset.setReg 1 v1).setReg 2 v2

/-- The same with another configuration. -/
def twoIn (f : NekoConfig → NekoConfig) (v1 v2 : Word) : State := { two v1 v2 with cfg := f NekoConfig.default }

/-- Register `r` and pc after an instruction. -/
def after (i : Instr) (s : State) (r : Reg) : Option (Word × Word) :=
  (nextOf (exec i s)).map fun t => (t.reg r, t.pc)

/-- pc and the call stack after an instruction. -/
def control (i : Instr) (s : State) : Option (Word × List Word) :=
  (nextOf (exec i s)).map fun t => (t.pc, t.callStack)

/-! ### Well-formedness: an ill-formed term for each check, which the check refuses -/

theorem test_wf_default : NekoConfig.default.wf = true := by decide
theorem test_wf_sp_odd : ({ NekoConfig.default with spReset := 0x7FFFB#32 }).wfSp = false := by decide
theorem test_wf_sp_high : ({ NekoConfig.default with spReset := 0x7FFFE#32 }).wfSp = false := by decide
theorem test_wf_sp_high_two :
    ({ NekoConfig.default with spReset := 0x7FFFE#32, stackSlotBytes := .two }).wfSp = true := by decide
theorem test_wf_depth_zero : ({ NekoConfig.default with callStackDepth := 0 }).wfDepth = false := by decide
theorem test_wf_depth_high : ({ NekoConfig.default with callStackDepth := 65537 }).wfDepth = false := by decide
theorem test_wf_register : (Operand.reg 16).wf = false := by decide
theorem test_wf_bracketed : (Operand.mem 16).wf = false := by decide
theorem test_wf_constant : (Operand.const (2 ^ 32)).wf = false := by decide
theorem test_wf_half : (Statement.ins .ldW [.reg 1, .const 0x10000]).wf = false := by decide
theorem test_wf_value : (Statement.ins .ldD [.reg 1, .flags []]).wf = false := by decide
/-- 90_conflicts.md C12: the manual's `spritesheet r1, mysprites`. -/
theorem test_wf_spritesheet : (Statement.ins .spritesheet [.reg 1, .label ['m']]).wf = false := by decide
/-- 90_conflicts.md C16: the manual's `st.w r2, 0x0100`. -/
theorem test_wf_store_constant : (Statement.ins .stW [.reg 2, .const 0x100]).wf = false := by decide
theorem test_wf_org : (Statement.org (.reg 1)).wf = false := by decide
theorem test_wf_label : (Statement.label []).wf = false := by decide
theorem test_wf_dw : (Statement.dw [0x10000]).wf = false := by decide
theorem test_wf_memory_order : ¬ Memory.wf sramSize sramUnlisted [(4, 1#8), (3, 1#8)] := by decide
theorem test_wf_memory_size : ¬ Memory.wf sramSize sramUnlisted [(0x80000, 1#8)] := by decide
theorem test_wf_memory_unlisted : ¬ Memory.wf frameSize (some 7#8) [(3, 7#8)] := by decide

/-! ### Decoding: for every constructor a word written out from its encoding (95_test_vectors.md section 2,
30_encoding.md R62 to R70) -/

theorem test_decode_or : decodeWords 0x1080#16 0#16 0#16 = .ok (.or 1 2) := by decide
theorem test_decode_or_ignored_bit : decodeWords 0xFF80#16 0#16 0#16 = .ok (.or 15 15) := by decide
theorem test_decode_and : decodeWords 0x1090#16 0#16 0#16 = .ok (.and 1 2) := by decide
theorem test_decode_xor : decodeWords 0x2AA0#16 0#16 0#16 = .ok (.xor 5 5) := by decide
theorem test_decode_not : decodeWords 0x10B0#16 0#16 0#16 = .ok (.not 1 2) := by decide
theorem test_decode_bsl : decodeWords 0x10C0#16 0#16 0#16 = .ok (.bsl 1 2) := by decide
theorem test_decode_bsr : decodeWords 0x10D0#16 0#16 0#16 = .ok (.bsr 1 2) := by decide
theorem test_decode_bswap : decodeWords 0x00E0#16 0#16 0#16 = .ok (.bswap 1 0) := by decide
theorem test_decode_jmpR : decodeWords 0x00C1#16 0#16 0#16 = .ok (.jmpR 3) := by decide
theorem test_decode_jmpifR : decodeWords 0x04D1#16 0#16 0#16 = .ok (.jmpifR 3 1) := by decide
theorem test_decode_jmpifnotR : decodeWords 0x04F1#16 0#16 0#16 = .ok (.jmpifnotR 3 1) := by decide
theorem test_decode_callR : decodeWords 0x40C1#16 0#16 0#16 = .ok (.callR 3) := by decide
theorem test_decode_callifR : decodeWords 0x44D1#16 0#16 0#16 = .ok (.callifR 3 1) := by decide
theorem test_decode_callifnotR : decodeWords 0x44F1#16 0#16 0#16 = .ok (.callifnotR 3 1) := by decide
theorem test_decode_jmpI : decodeWords 0x8001#16 0x8000#16 0x0010#16 = .ok (.jmpI 0x80000010#32) := by decide
theorem test_decode_jmpifI : decodeWords 0x8411#16 0x0000#16 0x0020#16 = .ok (.jmpifI 0x20#32 1) := by decide
theorem test_decode_jmpifnotI : decodeWords 0x8431#16 0x0000#16 0x0020#16 = .ok (.jmpifnotI 0x20#32 1) := by decide
theorem test_decode_callI : decodeWords 0xC001#16 0x0001#16 0x0100#16 = .ok (.callI 0x10100#32) := by decide
theorem test_decode_callifI : decodeWords 0xC411#16 0x0000#16 0x0100#16 = .ok (.callifI 0x100#32 1) := by decide
theorem test_decode_callifnotI : decodeWords 0xC831#16 0x0000#16 0x001A#16 = .ok (.callifnotI 0x1A#32 2) := by decide
theorem test_decode_iadd : decodeWords 0x2102#16 0#16 0#16 = .ok (.iadd 1 2) := by decide
theorem test_decode_isub : decodeWords 0x1012#16 0#16 0#16 = .ok (.isub 0 1) := by decide
theorem test_decode_imul : decodeWords 0x2122#16 0#16 0#16 = .ok (.imul 1 2) := by decide
theorem test_decode_idiv : decodeWords 0x2132#16 0#16 0#16 = .ok (.idiv 1 2) := by decide
theorem test_decode_imod : decodeWords 0x2142#16 0#16 0#16 = .ok (.imod 1 2) := by decide
theorem test_decode_ineg_unused_field : decodeWords 0xF152#16 0#16 0#16 = .ok (.ineg 1) := by decide
theorem test_decode_inc : decodeWords 0x0362#16 0#16 0#16 = .ok (.inc 3) := by decide
theorem test_decode_dec : decodeWords 0x0172#16 0#16 0#16 = .ok (.dec 1) := by decide
theorem test_decode_stW : decodeWords 0x2103#16 0#16 0#16 = .ok (.stW 1 2) := by decide
theorem test_decode_ldWMem : decodeWords 0x1313#16 0#16 0#16 = .ok (.ldWMem 3 1) := by decide
theorem test_decode_cpW : decodeWords 0x2123#16 0#16 0#16 = .ok (.cpW 1 2) := by decide
theorem test_decode_ldWImm : decodeWords 0x0233#16 0x00FF#16 0#16 = .ok (.ldWImm 2 0x00FF#16) := by decide
theorem test_decode_ldDImm : decodeWords 0x0F43#16 0x8000#16 0x0001#16 = .ok (.ldDImm 15 0x80000001#32) := by decide
theorem test_decode_stB : decodeWords 0x4553#16 0#16 0#16 = .ok (.stB 5 4) := by decide
theorem test_decode_ldBMem : decodeWords 0x5663#16 0#16 0#16 = .ok (.ldBMem 6 5) := by decide
theorem test_decode_ldBImm : decodeWords 0x0173#16 0xAABB#16 0#16 = .ok (.ldBImm 1 0xAABB#16) := by decide
theorem test_decode_ldDMem : decodeWords 0x2183#16 0#16 0#16 = .ok (.ldDMem 1 2) := by decide
theorem test_decode_ret_ignored_bits : decodeWords 0xFFE4#16 0#16 0#16 = .ok (.ret) := by decide
theorem test_decode_halt : decodeWords 0x0014#16 0#16 0#16 = .ok (.halt) := by decide
theorem test_decode_push : decodeWords 0x01E5#16 0#16 0#16 = .ok (.push 15) := by decide
theorem test_decode_pop : decodeWords 0x0035#16 0#16 0#16 = .ok (.pop 1) := by decide
theorem test_decode_test : decodeWords 0x0836#16 0#16 0#16 = .ok (.test 2 0x03#6) := by decide
theorem test_decode_test_high_mask : decodeWords 0x0606#16 0#16 0#16 = .ok (.test 1 0x20#6) := by decide
theorem test_decode_cmp : decodeWords 0x0EF7#16 0#16 0#16 = .ok (.cmp 15 14) := by decide
theorem test_decode_vsync : decodeWords 0x0008#16 0#16 0#16 = .ok (.vsync) := by decide
theorem test_decode_in : decodeWords 0x0098#16 0x0010#16 0#16 = .ok (.input 1 0x0010#16) := by decide
theorem test_decode_out : decodeWords 0x00A8#16 0x0010#16 0#16 = .ok (.output 1 0x0010#16) := by decide
theorem test_decode_fsel : decodeWords 0x01B8#16 0#16 0#16 = .ok (.fsel 3) := by decide
theorem test_decode_clf : decodeWords 0x0148#16 0#16 0#16 = .ok (.clf 2) := by decide
theorem test_decode_sprite : decodeWords 0x10D8#16 0#16 0#16 = .ok (.sprite 1 2) := by decide
theorem test_decode_spritesheet : decodeWords 0x00E8#16 0#16 0#16 = .ok (.spritesheet 1) := by decide
theorem test_reserved_logic : decodeWords 0x0070#16 0#16 0#16 = .error .reservedLogic := by decide
theorem test_reserved_branch : decodeWords 0x8021#16 0#16 0#16 = .error .reservedBranch := by decide
theorem test_reserved_math : decodeWords 0x0082#16 0#16 0#16 = .error .reservedMath := by decide
theorem test_reserved_mov : decodeWords 0x0093#16 0#16 0#16 = .error .reservedMov := by decide
theorem test_reserved_io : decodeWords 0x0078#16 0#16 0#16 = .error .reservedIo := by decide
theorem test_reserved_base_first : decodeWords 0x0009#16 0#16 0#16 = .error .unusedBase := by decide
theorem test_reserved_base_last : decodeWords 0xFFFF#16 0#16 0#16 = .error .unusedBase := by decide

/-- Bit 0 is the least significant bit of the first word, a later word's bits count on from it: the words
0x8411 0x0000 0x0020. -/
theorem test_table_word : decodeTableWord 48 0x002000008411 = some (.jmpifI 0x20#32 1) := by decide
/-- A row whose operand words the table gives no bits: the bits above are 0. -/
theorem test_table_word_short : decodeTableWord 16 0x0143 = some (.ldDImm 1 0#32) := by decide
theorem test_table_word_reserved : decodeTableWord 16 0x0009 = none := by decide
/-- The bytes end before the instruction does. -/
theorem test_decode_truncated : decode .big .one [0x80#8, 0x01#8, 0#8, 0#8] = .error .truncated := by decide
theorem test_decode_three_word_branch :
    decode .little .three [0xC1#8, 0x00#8, 1#8, 2#8, 3#8, 4#8, 9#8] = .ok (.jmpR 3, [9#8]) := by decide

/-! ### One step of each instruction (95_test_vectors.md sections 2.1 to 2.7) -/

theorem test_or : after (.or 1 2) (two 0xF0F00000 0x0FF0FFFF) 1 = some (0xFFF0FFFF#32, 2#32) := by decide
theorem test_and : after (.and 1 2) (two 0xF0F00000 0x0FF0FFFF) 1 = some (0x00F00000#32, 2#32) := by decide
theorem test_xor : after (.xor 1 2) (two 0xF0F00000 0x0FF0FFFF) 1 = some (0xFF00FFFF#32, 2#32) := by decide
theorem test_xor_self : after (.xor 1 1) (two 0x12345678 0) 1 = some (0#32, 2#32) := by decide
theorem test_not : after (.not 1 2) (two 0x1234 0) 1 = some (0xFFFFFFFF#32, 2#32) := by decide
theorem test_bsl : after (.bsl 1 2) (two 1 31) 1 = some (0x80000000#32, 2#32) := by decide
theorem test_bsl_out : after (.bsl 1 2) (two 0x80000001 1) 1 = some (2#32, 2#32) := by decide
theorem test_bsr : after (.bsr 1 2) (two 0x7FFFFFFF 4) 1 = some (0x07FFFFFF#32, 2#32) := by decide
theorem test_bsr_arithmetic :
    after (.bsr 1 2) (twoIn ({ · with bsrFn := .arithmetic }) 0x80000000 4) 1 = some (0xF8000000#32, 2#32) := by decide
theorem test_bswap : after (.bswap 1 2) (two 0 0x1234ABCD) 1 = some (0x0000CDAB#32, 2#32) := by decide
theorem test_iadd_wraps : after (.iadd 1 2) (two 0xFFFFFFFF 1) 1 = some (0#32, 2#32) := by decide
theorem test_iadd_self : after (.iadd 1 1) (two 0x15 0) 1 = some (0x2A#32, 2#32) := by decide
theorem test_isub_wraps : after (.isub 1 2) (two 0 1) 1 = some (0xFFFFFFFF#32, 2#32) := by decide
theorem test_isub : after (.isub 1 2) (two 9 5) 1 = some (4#32, 2#32) := by decide
theorem test_imul_low : after (.imul 1 2) (two 0x10000 0x10000) 1 = some (0#32, 2#32) := by decide
theorem test_imul_wraps : after (.imul 1 2) (two 0xFFFFFFFF 0xFFFFFFFF) 1 = some (1#32, 2#32) := by decide
theorem test_idiv : after (.idiv 1 2) (two 43 6) 1 = some (7#32, 2#32) := by decide
theorem test_idiv_signed : after (.idiv 1 2) (two 0xFFFFFFF9 2) 1 = some (0xFFFFFFFD#32, 2#32) := by decide
theorem test_imod_unsigned :
    after (.imod 1 2) (twoIn ({ · with modFn := .unsigned }) 0xFFFFFFF9 2) 1 = some (1#32, 2#32) := by decide
theorem test_imod_signed : after (.imod 1 2) (two 0xFFFFFFF9 2) 1 = some (0xFFFFFFFF#32, 2#32) := by decide
theorem test_ineg : after (.ineg 1) (two 1 0) 1 = some (0xFFFFFFFF#32, 2#32) := by decide
theorem test_ineg_least : after (.ineg 1) (two 0x80000000 0) 1 = some (0x80000000#32, 2#32) := by decide
theorem test_inc_wraps : after (.inc 2) (two 0 0xFFFFFFFF) 2 = some (0#32, 2#32) := by decide
theorem test_dec_wraps : after (.dec 1) (two 0 0) 1 = some (0xFFFFFFFF#32, 2#32) := by decide

theorem test_jmp_low_bits : control (.jmpI 0x00080010#32) (two 0 0) = some (0x10#32, []) := by decide
theorem test_jmp_register : control (.jmpR 1) (two 0xFFF80200 0) = some (0x200#32, []) := by decide
theorem test_jmpif_taken : control (.jmpifI 0x20#32 1) ((two 1 0).setPc 8) = some (0x20#32, []) := by decide
theorem test_jmpif_falls : control (.jmpifI 0x20#32 1) ((two 0 0).setPc 8) = some (0xE#32, []) := by decide
theorem test_jmpif_register : control (.jmpifR 2 1) ((two 0 0x200).setPc 0x100) = some (0x102#32, []) := by
  decide
theorem test_jmpif_register_long :
    control (.jmpifR 2 1) ((twoIn ({ · with branchRegLen := .three }) 0 0x200).setPc 0x100) = some (0x106#32, []) := by
  decide
theorem test_jmpifnot_taken : control (.jmpifnotI 0x20#32 1) ((two 0 0).setPc 8) = some (0x20#32, []) := by
  decide
theorem test_jmpifnot_register : control (.jmpifnotR 2 1) ((two 0 0x200).setPc 0x100) = some (0x200#32, []) := by
  decide
theorem test_call : control (.callI 0x100#32) ((two 0 0).setPc 4) = some (0x100#32, [0xA#32]) := by decide
theorem test_call_register : control (.callR 1) ((two 0x200 0).setPc 0x100) = some (0x200#32, [0x102#32]) := by
  decide
theorem test_callif_falls : control (.callifI 0x100#32 1) ((two 0 0).setPc 4) = some (0xA#32, []) := by decide
theorem test_callif_register : control (.callifR 2 1) ((two 1 0x200).setPc 0x100) = some (0x200#32, [0x102#32]) := by
  decide
theorem test_callifnot :
    control (.callifnotI 0x100#32 1) (((two 0 0).setPc 4).withCalls [0x20]) = some (0x100#32, [0x20#32, 0xA#32]) := by
  decide
theorem test_callifnot_register_falls : control (.callifnotR 2 1) ((two 1 0x200).setPc 0x100) = some (0x102#32, []) := by
  decide
theorem test_call_full :
    faultOf (exec (.callI 0x100#32) ((twoIn ({ · with callStackDepth := 1 }) 0 0).withCalls [0x20])) =
      some .callStackFull := by decide
theorem test_condition_two : faultOf (exec (.jmpifnotI 0x20#32 1) (two 2 0)) = some .conditionNotBool := by
  decide
theorem test_ret : control .ret ((two 0 0).withCalls [0x20, 0xA]) = some (0xA#32, [0x20#32]) := by decide
theorem test_ret_empty : faultOf (exec .ret (two 0 0)) = some .callStackEmpty := by decide
theorem test_halt :
    (nextOf (exec .halt ((two 0 0).setPc 0x20))).map (fun t => (t.halted, t.pc)) = some (true, 0x20#32) := by
  decide

theorem test_stW :
    [two 0x1000 0xCAFEBEEF, twoIn ({ · with wordByteOrder := .little }) 0x7FFFE 0xCAFEBEEF].map
      (fun s => (nextOf (exec (.stW 1 2) s)).map (fun t => t.sram)) =
      [some [(0x1000, 0xBE#8), (0x1001, 0xEF#8)], some [(0x7FFFE, 0xEF#8), (0x7FFFF, 0xBE#8)]] := by decide
theorem test_stW_stops :
    [0x1001#32, 0x80000#32, 0x80000000#32, 0x7FFFF#32].map (fun a => faultOf (exec (.stW 1 2) (two a 0))) =
      [some .misaligned, some .outsideMap, some .wideVideoStore, some .outsideMap] := by decide
theorem test_ldW_zero :
    after (.ldWMem 1 2) ((two 0xAAAA5555 0x1000).withSram [(0x1000, 0xBE#8), (0x1001, 0xEF#8)]) 1 =
      some (0x0000BEEF#32, 2#32) := by decide
theorem test_ldW_preserve :
    after (.ldWMem 1 2) ((twoIn ({ · with wordWriteUpper := .preserve }) 0xAAAA5555 0x1000).withSram
      [(0x1000, 0xBE#8), (0x1001, 0xEF#8)]) 1 = some (0xAAAABEEF#32, 2#32) := by decide
theorem test_cpW : after (.cpW 1 2) (two 0xFFFF0000 0xDEAD1234) 1 = some (0x1234#32, 2#32) := by decide
theorem test_cpW_preserve :
    after (.cpW 1 2) (twoIn ({ · with wordWriteUpper := .preserve }) 0xFFFF0000 0xDEAD1234) 1 =
      some (0xFFFF1234#32, 2#32) := by decide
theorem test_ldW_constant : after (.ldWImm 2 0x00FF#16) (two 0 0xAAAA5555) 2 = some (0xFF#32, 4#32) := by
  decide
theorem test_ldD_constant : after (.ldDImm 1 0x80000000#32) (two 0 0) 1 = some (0x80000000#32, 6#32) := by
  decide
theorem test_stB :
    [two 0x1001 0x1234565A, two 0x80000105 0xFF, two 0x8000C000 7].map (fun s =>
      (nextOf (exec (.stB 1 2) s)).map (fun t => (t.sram, t.fb0, t.fb1, t.borderColor))) =
      [some ([(0x1001, 0x5A#8)], .cpu none [], .cpu none [], 0#8),
        some ([], .cpu none [], .cpu none [(0x105, 0xFF#8)], 0#8),
        some ([], .cpu none [], .cpu none [], 7#8)] := by decide
theorem test_stB_stops :
    [0x8000C001#32, 0x8000D000#32, 0x8000BFFF#32, 0x8000CFFF#32].map (fun a => faultOf (exec (.stB 1 2) (two a 1))) =
      [some .vblankService, some .outsideMap, none, none] := by decide
theorem test_ldB : after (.ldBMem 1 2) ((two 0xAA00 0x1001).withSram [(0x1001, 0x5A#8)]) 1 =
    some (0xAA5A#32, 2#32) := by decide
theorem test_ldB_stops :
    [0x80000000#32, 0x8000C000#32, 0x90000000#32, 0x1000#32].map (fun a => faultOf (exec (.ldBMem 1 2) (two 0 a))) =
      [some .videoLoad, some .videoLoad, some .outsideMap, some .noValue] := by decide
theorem test_ldB_constant : after (.ldBImm 1 0xAABB#16) (two 0x12345678 0) 1 = some (0x123456BB#32, 4#32) := by
  decide
theorem test_ldD : after (.ldDMem 1 2)
    ((two 0 0x300).withSram [(0x300, 0x80#8), (0x301, 0#8), (0x302, 0#8), (0x303, 1#8)]) 1 =
      some (0x80000001#32, 2#32) := by decide
theorem test_ldD_stops :
    [0x7FFFE#32, 0x301#32, 0xFFFFFFFE#32].map (fun a => faultOf (exec (.ldDMem 1 2) (two 0 a))) =
      [some .outsideMap, some .misaligned, some .outsideMap] := by decide

theorem test_push :
    (nextOf (exec (.push 1) (two 0x12345678 0))).map (fun t => (t.sram, t.sp)) =
      some ([(0x7FFFC, 0x12#8), (0x7FFFD, 0x34#8), (0x7FFFE, 0x56#8), (0x7FFFF, 0x78#8)], 0x7FFF8#32) := by
  decide
theorem test_push_two :
    (nextOf (exec (.push 1) ((twoIn ({ · with stackSlotBytes := .two }) 0x12345678 0).setSp 0x7FFFE))).map
      (fun t => (t.sram, t.sp)) = some ([(0x7FFFE, 0x56#8), (0x7FFFF, 0x78#8)], 0x7FFFC#32) := by decide
theorem test_pop_nothing : faultOf (exec (.pop 1) (two 0 0)) = some .outsideMap := by decide
theorem test_pop :
    (nextOf (exec (.pop 1) (((two 0 0).setSp 0x7FFF8).withSram
      [(0x7FFFC, 0x12#8), (0x7FFFD, 0x34#8), (0x7FFFE, 0x56#8), (0x7FFFF, 0x78#8)]))).map
        (fun t => (t.reg 1, t.sp)) = some (0x12345678#32, 0x7FFFC#32) := by decide

theorem test_cmp :
    [(5#32, 3#32), (3#32, 5#32), (7#32, 7#32), (0#32, 0#32), (0x80000000#32, 1#32), (0#32, 5#32)].map
      (fun c => (nextOf (exec (.cmp 1 2) (two c.1 c.2))).map (·.flags)) =
      [some 0x1A#6, some 0x1C#6, some 0x09#6, some 0x21#6, some 0x1C#6, some 0x34#6] := by decide
theorem test_cmp_other :
    [(0x80000000#32, 1#32), (0#32, 5#32)].map (fun c =>
      (nextOf (exec (.cmp 1 2) (twoIn ({ · with cmpSigned := .unsigned, zeroFlagOperand := .rB }) c.1 c.2))).map
        (·.flags)) = [some 0x1A#6, some 0x1C#6] := by decide
theorem test_test :
    [0x01#6, 0x02#6, 0x04#6, 0x08#6, 0x10#6, 0x20#6, 0x05#6, 0x00#6, 0x3F#6].map
      (fun m => (after (.test 1 m) ((two 0xFFFFFFFF 0).setFlags 0x1A#6) 1).map (·.1)) =
      [some 0#32, some 1#32, some 0#32, some 1#32, some 1#32, some 0#32, some 0#32, some 0#32, some 1#32] := by
  decide

/-- The reset state with r1 and r2 set, at the video step that signals the first vertical sync. -/
def atSync (v1 v2 : Word) : State := { two v1 v2 with videoTime := syncTime 0 }

theorem atSync_verticalSync (v1 v2 : Word) : (atSync v1 v2).verticalSync = true := isSyncTick_syncTime 0
theorem atSync_next_verticalSync (v1 v2 : Word) : (atSync v1 v2).videoStep.verticalSync = false :=
  isSyncTick_succ (isSyncTick_syncTime 0)

theorem test_vsync_sync :
    (nextOf (exec .vsync (atSync 0 0))).map (fun t => (t.pc, t.vsyncWait)) = some (2#32, false) := by
  simp [exec, execVsync, atSync_verticalSync, nextOf]
  decide
theorem test_vsync_hold :
    (nextOf (exec .vsync (atSync 0 0).videoStep)).map (fun t => (t.pc, t.vsyncWait)) = some (0#32, true) := by
  simp [exec, execVsync, atSync_next_verticalSync, nextOf]
  decide
theorem test_in : (nextOf (exec (.input 1 0x10#16) (two 0 0))).map (fun t => (t.pc, t.draws, t.events.length)) =
    some (4#32, 1, 1) := by decide
theorem test_out : (nextOf (exec (.output 1 0x10#16) (two 0x41 0))).map (fun t => (t.pc, t.events)) =
    some (4#32, [.output 0x10#16 0x41#32]) := by decide
theorem test_fsel :
    [1#32, 0xFFFFFFFE#32].map (fun v => (nextOf (exec (.fsel 1) (two v 0))).map (fun t => (t.displayFB, t.events))) =
      [some (1#1, [.frameSelect 1#1]), some (0#1, [.frameSelect 0#1])] := by decide
theorem test_clf :
    (nextOf (exec (.clf 1) (two 0x123456FF 0))).map (fun t => (t.fb0, t.fb1)) =
      some (.cpu none [], .cpu (some 0xFF#8) []) := by decide
theorem test_sprite :
    (nextOf (exec (.sprite 1 2) (two 0x400 8))).map
      (fun t => (t.spriteTablePtr, t.spriteCount, t.events, t.fb0, t.fb1)) =
      some (0x400#32, 8#32, [.spriteKick 0x400#32 8#32 0#32], .drawn, .drawn) := by decide
theorem test_spritesheet :
    (nextOf (exec (.spritesheet 1) (two 0x2000 0))).map (fun t => (t.spriteSheetPtr, t.pc)) =
      some (0x2000#32, 2#32) := by decide

/-! ### The step, the fetch and the host's entry points -/

/-- `iadd r1, r2` fetched and run as the first instruction after reset. -/
theorem test_step_first : (nextOf (step ((two 6 7).withFetchWord 16 0x2102))).map (fun t => (t.reg 1, t.pc)) =
    some (13#32, 2#32) := by decide
theorem test_step_nothing_loaded : faultOf (step State.reset) = some .noValue := by decide
theorem test_step_halted : (nextOf (step (two 6 7).setHalted)).map (·.pc) = some 0#32 := by decide
theorem test_fetch_odd : State.reset.fetch16 1#32 = .error .badFetch := by decide
theorem test_fetch_outside : State.reset.fetch16 0x80000#32 = .error .badFetch := by decide
/-- The first word of P6 is loaded, the words after it are not. -/
theorem test_fetch_short :
    faultOf (step ((two 0 0).withSram [(0, 0x01#8), (1, 0x43#8)])) = some .noValue := by decide

/-! ### The assembler (95_test_vectors.md E3, E8, E9) -/

theorem test_assemble_not : assembleInstr (fun _ => none) .not [.reg 1] = .ok (.not 1 1) := by decide
theorem test_assemble_noop : assembleInstr (fun _ => none) .noop [] = .ok (.or 0 0) := by decide
theorem test_assemble_flags :
    assembleInstr (fun _ => none) .test [.reg 2, .flags [.greater, .equal]] = .ok (.test 2 0x03#6) := by decide
/-- The `lea` example of the manual, the label defined after its use. -/
theorem test_assemble_lea :
    assemble NekoConfig.default [.ins .lea [.reg 7, .label ['D']], .org (.const 0x300), .label ['D'], .dw [0xFFE0]] =
      .ok [(0, 0x07#8), (1, 0x43#8), (2, 0#8), (3, 0#8), (4, 0x03#8), (5, 0#8), (0x300, 0xFF#8), (0x301, 0xE0#8)] := by
  decide
theorem test_assemble_unknown_label :
    assemble NekoConfig.default [.ins .jmp [.label ['D']]] = .error .unknownLabel := by decide
theorem test_assemble_text :
    assembleText NekoConfig.default "  cmp r0, r0; // compare\n test r1, notzero\n" =
      .ok [(0, 0x00#8), (1, 0x07#8), (2, 0x04#8), (3, 0x86#8)] := by decide
theorem test_vram_address : vramAddress 255#8 191#8 = 0x8000BFFF#32 := by decide

/-! ### Witnesses: states that meet the hypotheses of the obligations, at the ends of their ranges -/

theorem witness_ShiftsInRange_left : ((two 1 31).reg 2).toNat < 32 := by decide
theorem witness_ShiftsInRange_right :
    ((two 0x7FFFFFFF 31).reg 2).toNat < 32 ∧ ((two 0x7FFFFFFF 31).reg 1).toNat < 2 ^ 31 := by decide
theorem witness_ShiftsInRange_zero : ((two 0x80000000 0).reg 2).toNat < 32 ∧ (two 0x80000000 0).reg 2 = 0#32 := by
  decide
theorem witness_ShiftsOutOfRange : 32 ≤ ((two 1 32).reg 2).toNat := by decide
theorem witness_BsrFill_logical : let s := two 0x80000000 1
    2 ^ 31 ≤ (s.reg 1).toNat ∧ 0 < (s.reg 2).toNat ∧ (s.reg 2).toNat < 32 ∧ s.cfg.bsrFn = .logical := by decide
theorem witness_BsrFill_arithmetic : let s := twoIn ({ · with bsrFn := .arithmetic }) 0xFFFFFFFF 31
    2 ^ 31 ≤ (s.reg 1).toNat ∧ 0 < (s.reg 2).toNat ∧ (s.reg 2).toNat < 32 ∧ s.cfg.bsrFn = .arithmetic := by decide
theorem witness_BsrFill_other : let s := twoIn ({ · with bsrFn := .other }) 0x80000000 31
    2 ^ 31 ≤ (s.reg 1).toNat ∧ 0 < (s.reg 2).toNat ∧ (s.reg 2).toNat < 32 ∧ s.cfg.bsrFn = .other := by decide

theorem witness_DivModExact : let s := two 0x7FFFFFFF 0x7FFFFFFF
    (s.reg 1).toNat < 2 ^ 31 ∧ (s.reg 2).toNat < 2 ^ 31 ∧ s.reg 2 ≠ 0#32 := by decide
theorem witness_DivModByZero : (two 5 0).reg 2 = 0#32 := by decide
theorem witness_DivMod_unsigned : let s := twoIn ({ · with divFn := .unsigned, modFn := .unsigned }) 0x80000000 1
    s.reg 2 ≠ 0#32 ∧ 2 ^ 31 ≤ (s.reg 1).toNat ∧ s.cfg.divFn = .unsigned ∧ s.cfg.modFn = .unsigned := by decide
theorem witness_DivMod_signed : let s := two 0x80000000 0xFFFFFFFE
    s.reg 2 ≠ 0#32 ∧ 2 ^ 31 ≤ (s.reg 2).toNat ∧ s.cfg.divFn = .signed ∧ s.cfg.modFn = .signed ∧
      ¬ (s.reg 1 = 0x80000000#32 ∧ s.reg 2 = 0xFFFFFFFF#32) := by decide
theorem witness_DivMod_overflow : let s := two 0x80000000 0xFFFFFFFF
    s.reg 2 ≠ 0#32 ∧ 2 ^ 31 ≤ (s.reg 1).toNat ∧ s.cfg.divFn = .signed ∧ s.cfg.modFn = .signed ∧
      s.reg 1 = 0x80000000#32 ∧ s.reg 2 = 0xFFFFFFFF#32 := by decide
theorem witness_DivMod_other : let s := twoIn ({ · with divFn := .other, modFn := .other }) 1 0x80000000
    s.reg 2 ≠ 0#32 ∧ 2 ^ 31 ≤ (s.reg 2).toNat ∧ s.cfg.divFn = .other ∧ s.cfg.modFn = .other := by decide

theorem witness_Jmp_odd : isOdd 0x11#32 = true ∧ isOdd ((two 0xFFFFFFFF 0).reg 1) = true ∧
    (two 0xFFFFFFFF 0).halted = false := by decide
theorem witness_ConditionalJump :
    (two 1 0).reg 1 = 1#32 ∧ (two 0 0).reg 1 = 0#32 ∧ (two 2 0).reg 1 ≠ 0#32 ∧ (two 2 0).reg 1 ≠ 1#32 := by decide
theorem witness_Call_room : (two 0 0).callStack.length < (two 0 0).cfg.callStackDepth := by decide
theorem witness_Call_full : let s := (twoIn ({ · with callStackDepth := 1 }) 1 0).withCalls [0x20]
    s.callStack.length = s.cfg.callStackDepth ∧ s.reg 1 = 1#32 ∧ s.reg 2 = 0#32 := by decide
theorem witness_Ret : ((two 0 0).withCalls [0x20, 0xA]).callStack = [0x20#32] ++ [0xA#32] := by decide
theorem witness_Ret_empty : (two 0 0).callStack = [] := by decide
theorem witness_Ret_word : 0xFFE4#16 &&& 0x001F#16 = 0x0004#16 := by decide
theorem witness_Halt_word : 0xFFF4#16 &&& 0x001F#16 = 0x0014#16 := by decide
theorem witness_CallThenRet : ∃ t, exec (.callI 0x100#32) (two 0 0) = .next t ∧
    (two 0 0).callStack.length < t.callStack.length := ⟨_, rfl, by decide⟩

theorem witness_StoreWord : InSram ((two 0x7FFFE 0).reg 1) 2 ∧ isOdd ((two 0x7FFFE 0).reg 1) = false := by
  unfold InSram; decide
theorem witness_StoreByteToSram : InSram ((two 0x7FFFF 0).reg 1) 1 := by unfold InSram; decide

theorem two_canonical (a b : Word) : (two a b).Canonical :=
  ⟨⟨.nil, nofun⟩, ⟨.nil, nofun⟩, ⟨.nil, nofun⟩, .nil,
    nofun⟩

theorem witness_StoreByteToVram : (two 0x8000BFFF 0xFF).Canonical ∧ 0xBFFF < 0xC000 ∧
    ((two 0x8000BFFF 0xFF).reg 1).toNat = 0x80000000 + 0xBFFF ∧
    (two 0x8000BFFF 0xFF).fb (1#1 - (two 0x8000BFFF 0xFF).displayFB) ≠ .drawn :=
  ⟨two_canonical _ _, by decide, by decide, by decide⟩
theorem witness_StoreByteToVram_drawn : let s := (two 0x80000000 0xFF).setFb 1#1 .drawn
    s.Canonical ∧ 0 < 0xC000 ∧ (s.reg 1).toNat = 0x80000000 + 0 ∧ s.fb (1#1 - s.displayFB) = .drawn :=
  ⟨(two_canonical _ _).setFb _ _ trivial, by decide, by decide, by decide⟩
theorem witness_StoreByteToDevice :
    0xFFF < 0x1000 ∧ ((two 0x8000CFFF 1).reg 1).toNat = 0x8000C000 + 0xFFF ∧
    ((two 0x8000C000 1).reg 1).toNat = 0x8000C000 + 0 := by decide
theorem witness_StoreByteToDevice_service :
    1 < 0x1000 ∧ ((two 0x8000C001 0x101).reg 1).toNat = 0x8000C000 + 1 ∧
    ((two 0x8000C001 0x101).reg 2).extractLsb' 0 8 ≠ 0#8 ∧ ((two 0x8000C001 0x100).reg 2).extractLsb' 0 8 = 0#8 := by
  decide

theorem all_span {a : Word} {n : Nat} {p : Word → Bool} (h : (span a n).all p = true) : ∀ b ∈ span a n, p b = true :=
  List.all_eq_true.1 h

/-- The first address past SRAM, the last VRAM byte, and an odd address inside. -/
theorem witness_AccessStops_outside : (∃ b ∈ span 0x7FFFD#32 4, region b = .absent) ∧ region 0x80000#32 = .absent :=
  ⟨⟨0x80000, by decide, by decide⟩, by decide⟩
theorem witness_AccessStops_wide :
    (∀ b ∈ span 0x8000BFFF#32 2, region b ≠ .absent) ∧ ∃ b ∈ span 0x8000BFFF#32 2, region b ≠ .sram :=
  ⟨fun b h => by simpa using all_span (p := fun b => region b != .absent) (by decide) b h,
    ⟨0x8000BFFF, by decide, by decide⟩⟩
theorem witness_AccessStops_odd : (∀ b ∈ span 0x7FFFB#32 4, region b = .sram) ∧ 4 ≠ 1 ∧ isOdd 0x7FFFB#32 = true :=
  ⟨fun b h => by simpa using all_span (p := fun b => region b == .sram) (by decide) b h, by decide, by decide⟩
/-- A byte that nothing has written, at an address that is otherwise in order. -/
theorem witness_LoadStops_noValue : (∀ b ∈ span 0x7FFFC#32 4, region b = .sram) ∧ isOdd 0x7FFFC#32 = false ∧
    ∃ b ∈ span 0x7FFFC#32 4, (two 0 0).byteAt (.sram b.toNat) = none :=
  ⟨fun b h => by simpa using all_span (p := fun b => region b == .sram) (by decide) b h, by decide,
    ⟨0x7FFFF, by decide, rfl⟩⟩
/-- The stack pointer at the ends: a POP of an empty stack, a PUSH past the last slot. -/
theorem witness_StackStops :
    (∃ b ∈ span ((two 0 0).sp + BitVec.ofNat 32 (two 0 0).cfg.stackSlotBytes.bytes) 4, region b = .absent) ∧
    ∃ b ∈ span ((two 0 0).setSp 0xFFFFFFFC).sp 4, region b = .absent :=
  ⟨⟨0x80000, by decide, by decide⟩, ⟨0xFFFFFFFC, by decide, by decide⟩⟩

/-- Four bytes at the top of SRAM. -/
def topBytes : Memory := [(0x7FFFC, 0x12#8), (0x7FFFD, 0x34#8), (0x7FFFE, 0x56#8), (0x7FFFF, 0x78#8)]

/-- r2 holds an address, and those bytes are in SRAM. -/
def withTop (v2 : Word) : State := (two 0 v2).withSram topBytes

theorem witness_MemoryLoad_byte : InSram ((withTop 0x7FFFF).reg 2) 1 ∧
    (withTop 0x7FFFF).byteAt (.sram ((withTop 0x7FFFF).reg 2).toNat) = some 0x78#8 :=
  ⟨by unfold InSram; decide, rfl⟩
theorem witness_MemoryLoad_word : InSram ((withTop 0x7FFFE).reg 2) 2 ∧ isOdd ((withTop 0x7FFFE).reg 2) = false ∧
    (withTop 0x7FFFE).byteAt (.sram ((withTop 0x7FFFE).reg 2).toNat) = some 0x56#8 ∧
    (withTop 0x7FFFE).byteAt (.sram (((withTop 0x7FFFE).reg 2).toNat + 1)) = some 0x78#8 :=
  ⟨by unfold InSram; decide, rfl, rfl, rfl⟩
theorem witness_MemoryLoad_dword : InSram ((withTop 0x7FFFC).reg 2) 4 ∧ isOdd ((withTop 0x7FFFC).reg 2) = false ∧
    (withTop 0x7FFFC).byteAt (.sram ((withTop 0x7FFFC).reg 2).toNat) = some 0x12#8 ∧
    (withTop 0x7FFFC).byteAt (.sram (((withTop 0x7FFFC).reg 2).toNat + 1)) = some 0x34#8 ∧
    (withTop 0x7FFFC).byteAt (.sram (((withTop 0x7FFFC).reg 2).toNat + 2)) = some 0x56#8 ∧
    (withTop 0x7FFFC).byteAt (.sram (((withTop 0x7FFFC).reg 2).toNat + 3)) = some 0x78#8 :=
  ⟨by unfold InSram; decide, rfl, rfl, rfl, rfl, rfl⟩
/-- For LoadsSeeStoredWord and FetchAfterStore; both settings of `storedFetch`. -/
theorem witness_stored_word :
    (∃ t, exec (.stW 1 2) (two 0x7FFFE 0xBEEF) = .next t) ∧ (two 0x7FFFE 0xBEEF).cfg.storedFetch = .fault ∧
    ∃ t, exec (.stW 1 2) (twoIn ({ · with storedFetch := .latest }) 0 0xBEEF) = .next t :=
  ⟨⟨_, rfl⟩, by decide, ⟨_, rfl⟩⟩

theorem witness_Push : isOdd (two 0 0).sp = false ∧ InSram (two 0 0).sp (two 0 0).cfg.stackSlotBytes.bytes ∧
    (two 0 0).cfg.stackSlotBytes = .four := by unfold InSram; decide
theorem witness_Push_two : let s := (twoIn ({ · with stackSlotBytes := .two }) 0 0).setSp 0x7FFFE
    isOdd s.sp = false ∧ InSram s.sp s.cfg.stackSlotBytes.bytes ∧ s.cfg.stackSlotBytes = .two := by
  unfold InSram; decide
theorem witness_Pop : let s := ((two 0 0).setSp 0x7FFF8).withSram topBytes
    s.cfg.stackSlotBytes = .four ∧ isOdd s.sp = false ∧ InSram (s.sp + 4#32) 4 ∧
      s.sramWord (s.sp + 4#32) = some 0x12345678#32 := by unfold InSram; decide
theorem witness_Pop_two : let s := ((twoIn ({ · with stackSlotBytes := .two }) 0 0).setSp 0x7FFFC).withSram topBytes
    s.cfg.stackSlotBytes = .two ∧ isOdd s.sp = false ∧ InSram (s.sp + 2#32) 2 ∧
      s.sramHalf (s.sp + 2#32) = some 0x5678#16 := by unfold InSram; decide
/-- For PushThenPopRestores, SpChangedOnlyByStackGroup and every statement about an instruction that answers a
next state. -/
theorem witness_PushThenPop : ∃ t, exec (.push 1) (two 7 0) = .next t := ⟨_, rfl⟩

theorem witness_Test_set : ((two 0 0).setFlags 0x20#6).flag 5 = true ∧ (0x20#6).getLsbD 5 = true := by decide
theorem witness_Test_clear : ∀ k, ¬ (((two 0 0).setFlags 0x1F#6).flag k = true ∧ (0x20#6).getLsbD k = true) := by
  intro k
  rcases Nat.lt_or_ge k 6 with h | h
  · revert k; decide
  · simp [State.flag, BitVec.getLsbD_of_ge _ k h]
theorem witness_CmpThenTest : ∃ t, exec (.cmp 1 2) (two 3 5) = .next t := ⟨_, rfl⟩
theorem witness_FlagsOnly_cmp : ∀ rA mask, Instr.cmp 1 2 ≠ Instr.test rA mask := nofun
theorem witness_FlagsOnly_other : (∀ rA mask, Instr.iadd 1 2 ≠ Instr.test rA mask) ∧
    (∀ rA rB, Instr.iadd 1 2 ≠ Instr.cmp rA rB) ∧ ∃ t, exec (.iadd 1 2) (two 3 5) = .next t :=
  ⟨nofun, nofun, ⟨_, rfl⟩⟩
theorem witness_SpChanged_pop : ∃ t, exec (.pop 1) (((two 0 0).setSp 0x7FFF8).withSram topBytes) = .next t :=
  ⟨_, rfl⟩
theorem witness_SpChanged_other : (∃ t, exec (.iadd 1 2) (two 0 0) = .next t) ∧
    ∀ rA, Instr.iadd 1 2 ≠ .push rA ∧ Instr.iadd 1 2 ≠ .pop rA := ⟨⟨_, rfl⟩, fun _ => ⟨nofun, nofun⟩⟩
/-- For CallStackChangedOnlyByCallsAndRet and HistoryGrowsAndConfigurationStays. -/
theorem witness_exec_next : (∃ t, exec (.callR 1) (two 0 0) = .next t) ∧
    (∃ t, exec .ret ((two 0 0).withCalls [0x20]) = .next t) ∧ ∃ t, exec (.input 1 0) (two 0 0) = .next t :=
  ⟨⟨_, rfl⟩, ⟨_, rfl⟩, ⟨_, rfl⟩⟩
theorem witness_SramChanged : (∃ t, exec (.clf 1) (two 0 0) = .next t) ∧
    ∀ rA rB, Instr.clf 1 ≠ .stW rA rB ∧ Instr.clf 1 ≠ .stB rA rB ∧ Instr.clf 1 ≠ .push rA :=
  ⟨⟨_, rfl⟩, fun _ _ => ⟨nofun, nofun, nofun⟩⟩
theorem witness_DisplayedBuffer : (∃ t, exec (.fsel 1) (two 1 0) = .next t) ∧
    (∀ rA rB, Instr.fsel 1 ≠ .sprite rA rB) ∧ (∃ t, exec (.clf 1) (two 1 0) = .next t) ∧
    ∀ rA rB, Instr.clf 1 ≠ .sprite rA rB :=
  ⟨⟨_, rfl⟩, nofun, ⟨_, rfl⟩, nofun⟩

theorem witness_Vsync : (atSync 0 0).verticalSync = true ∧ (atSync 0 0).videoStep.verticalSync = false :=
  ⟨atSync_verticalSync 0 0, atSync_next_verticalSync 0 0⟩
/-- A VSYNC fetched just after a vertical sync: it has to wait for the next. -/
theorem witness_VsyncCompletes : let s := (atSync 0 0).videoStep.withFetchWord 16 0x0008
    s.halted = false ∧ s.fetchInstr = .ok .vsync ∧ s.verticalSync = false :=
  ⟨rfl, by rfl, atSync_next_verticalSync 0 0⟩
theorem witness_OtherAgents : Instr.iadd 1 2 ≠ .vsync ∧ (∃ t, exec (.iadd 1 2) (two 3 5).videoStep = .next t) ∧
    (∃ t, step (two 3 5).setHalted = .next t) ∧ (two 3 5).setHalted.halted = true :=
  ⟨nofun, ⟨_, rfl⟩, ⟨_, rfl⟩, rfl⟩
theorem witness_Fsel_clf_drawn : let s := (two 0 0).setFb 1#1 .drawn
    s.fb (1#1 - s.displayFB) = .drawn ∧ (two 0 0).fb (1#1 - (two 0 0).displayFB) ≠ .drawn := by decide
theorem witness_Spritesheet_stays : (∃ t, exec (.sprite 1 2) (two 0 0) = .next t) ∧
    (∀ rA, Instr.sprite 1 2 ≠ .spritesheet rA) ∧ 0xFFE8#16 &&& 0x007F#16 = 0x0068#16 :=
  ⟨⟨_, rfl⟩, nofun, by decide⟩
theorem witness_ignored_fields : 0xF162#16 &&& 0x00FF#16 = 0x0062#16 ∧ 0xF172#16 &&& 0x00FF#16 = 0x0072#16 ∧
    0xF143#16 &&& 0x00FF#16 = 0x0043#16 ∧ 0xF173#16 &&& 0x00FF#16 = 0x0073#16 := by decide
theorem witness_Sprite_reaches : ∃ t, exec (.sprite 1 2) (two 0x400 8) = .next t ∧ Reaches t t := ⟨_, rfl, .here _⟩

/-- Mask, match, and the word with every other bit set, for each row of spec/opcode_table.json. -/
def tableRows : List (Half × Half × Half) :=
  [(0x007F, 0x0000, 0xFF80), (0x007F, 0x0010, 0xFF90), (0x007F, 0x0020, 0xFFA0), (0x007F, 0x0030, 0xFFB0),
    (0x007F, 0x0040, 0xFFC0), (0x007F, 0x0050, 0xFFD0), (0x007F, 0x0060, 0xFFE0), (0xC03F, 0x0001, 0x3FC1),
    (0xC03F, 0x0011, 0x3FD1), (0xC03F, 0x0031, 0x3FF1)] ++
  [(0xC03F, 0x4001, 0x7FC1), (0xC03F, 0x4011, 0x7FD1), (0xC03F, 0x4031, 0x7FF1), (0xC03F, 0x8001, 0xBFC1),
    (0xC03F, 0x8011, 0xBFD1), (0xC03F, 0x8031, 0xBFF1), (0xC03F, 0xC001, 0xFFC1), (0xC03F, 0xC011, 0xFFD1),
    (0xC03F, 0xC031, 0xFFF1), (0x00FF, 0x0002, 0xFF02)] ++
  [(0x00FF, 0x0012, 0xFF12), (0x00FF, 0x0022, 0xFF22), (0x00FF, 0x0032, 0xFF32), (0x00FF, 0x0042, 0xFF42),
    (0x00FF, 0x0052, 0xFF52), (0x00FF, 0x0062, 0xFF62), (0x00FF, 0x0072, 0xFF72), (0x00FF, 0x0003, 0xFF03),
    (0x00FF, 0x0013, 0xFF13), (0x00FF, 0x0023, 0xFF23)] ++
  [(0x00FF, 0x0033, 0xFF33), (0x00FF, 0x0043, 0xFF43), (0x00FF, 0x0053, 0xFF53), (0x00FF, 0x0063, 0xFF63),
    (0x00FF, 0x0073, 0xFF73), (0x00FF, 0x0083, 0xFF83), (0x001F, 0x0004, 0xFFE4), (0x001F, 0x0014, 0xFFF4),
    (0x001F, 0x0005, 0xFFE5), (0x001F, 0x0015, 0xFFF5)] ++
  [(0x000F, 0x0006, 0xFFF6), (0x000F, 0x0007, 0xFFF7), (0x007F, 0x0008, 0xFF88), (0x007F, 0x0018, 0xFF98),
    (0x007F, 0x0028, 0xFFA8), (0x007F, 0x0038, 0xFFB8), (0x007F, 0x0048, 0xFFC8), (0x007F, 0x0058, 0xFFD8),
    (0x007F, 0x0068, 0xFFE8)]

theorem witness_OpcodeRows : tableRows.length = 49 ∧ ∀ r ∈ tableRows, r.2.2 &&& r.1 = r.2.1 :=
  ⟨by decide, fun r h => beq_iff_eq.1 (List.all_eq_true.1
    (show tableRows.all (fun r => r.2.2 &&& r.1 == r.2.1) = true by decide) r h)⟩
theorem witness_ReservedWordsStop :
    [0x0070#16, 0x8021#16, 0x0082#16, 0x0093#16, 0x0078#16, 0xFFFF#16].all (fun w =>
      let s := (two 0 0).withFetchWord 16 w.toNat
      s.halted == false && s.fetch16 s.pc == .ok w) = true := by decide

/-- `iadd r1, r2` at the last word of SRAM. -/
def lastWord : State := ((two 6 7).setPc 0x7FFFE).withFetchWord 16 0x2102

theorem witness_StepRuns : lastWord.halted = false ∧ lastWord.HoldsCode [0x21#8, 0x02#8] ∧
    decode lastWord.cfg.wordByteOrder lastWord.cfg.branchRegLen [0x21#8, 0x02#8] = .ok (.iadd 1 2, []) := by
  refine ⟨by decide, ⟨by decide, by decide, ?_, ?_⟩, by decide⟩
  · intro k b h
    match k, h with
    | 0, h => cases h; decide
    | 1, h => cases h; decide
    | k + 2, h => simp at h
  · intro k h
    match k, h with
    | 0, _ => decide
    | 1, _ => decide
    | k + 2, h => simp at h
theorem witness_StepRunsEncoded :
    encodeBytes lastWord.cfg.wordByteOrder lastWord.cfg.branchRegLen (.iadd 1 2) = [0x21#8, 0x02#8] := by decide
theorem witness_FetchStops : isOdd 0x7FFFF#32 = true ∧ ¬ InSram 0x7FFFF#32 2 ∧
    (isOdd 0x7FFFE#32 = false ∧ InSram 0x7FFFE#32 2) ∧
    State.reset.byteAt (.sram 0x7FFFE) = none ∧ 0x7FFFE ∉ State.reset.stored ∧
    ({ two 0 0 with stored := [0x7FFFF] } : State).cfg.storedFetch = .fault ∧
    State.reset.halted = false ∧ State.reset.fetch16 State.reset.pc = .error .noValue := by unfold InSram; decide
/-- `jmp` at the end of SRAM: its second word is the last there is, its third is not there. -/
def cutShort : State := (two 0 0).setPc 0x7FFFC |>.withSram [(0x7FFFC, 0x80#8), (0x7FFFD, 0x01#8), (0x7FFFE, 0#8), (0x7FFFF, 0#8)]

theorem witness_FetchStops_extra : cutShort.halted = false ∧ cutShort.fetch16 cutShort.pc = .ok 0x8001#16 ∧
    decodeWords 0x8001#16 0#16 0#16 = .ok (.jmpI 0#32) ∧ 2 < (Instr.jmpI 0#32).words cutShort.cfg.branchRegLen ∧
    cutShort.fetch16 (cutShort.pc + BitVec.ofNat 32 (2 * 1)) = .ok 0#16 ∧
    cutShort.fetch16 (cutShort.pc + BitVec.ofNat 32 (2 * 2)) = .error .badFetch := by decide

theorem witness_Reset : ({ NekoConfig.default with displayFBReset := some 1#1 }).displayFBReset = some 1#1 ∧
    (∀ c ∈ [((0x100 : Nat), 1#8)], c.1 ≠ 0) ∧ 0x7FFFF < sramSize ∧
    (∀ c ∈ [((0 : Nat), 1#8), (1, 2#8)], c.1 ≠ 0x7FFFF) ∧ sramSize ≤ 0x80000 := by decide
theorem witness_ResetHasInvariant : NekoConfig.default.wf = true ∧
    ({ NekoConfig.default with spReset := 0#32, callStackDepth := 65536 }).wf = true := by decide
/-- A state with the invariant, of which a step leads to the first address past SRAM. -/
theorem witness_StepKeepsInvariant : lastWord.Inv ∧ ∃ t, step lastWord = .next t :=
  ⟨⟨⟨by decide, (two_canonical 0 0).fb0, (two_canonical 0 0).fb1, .nil, nofun⟩,
    ⟨by decide, nofun⟩, by decide, by decide, by decide⟩, next_of_isSome (by decide)⟩
theorem witness_Lea : 15 < 16 ∧ 2 ^ 32 - 1 < 2 ^ 32 ∧ (fun _ : Label => some (2 ^ 32 - 1)) ['D'] = some (2 ^ 32 - 1) := by
  decide
/-- Taken: a label of 16 bits in a one-word form, one of 32 in an address. Refused: a shape, a register over 15,
a constant of more than 32 bits, a label that does not fit, one that is not defined. -/
theorem test_assemble_takes :
    assembleInstr (fun _ => some 0xFFFF) .ldW [.reg 15, .label ['D']] = .ok (.ldWImm 15 0xFFFF#16) ∧
    assembleInstr (fun _ => some 0x80000) .jmp [.label ['D']] = .ok (.jmpI 0x80000#32) := by decide
theorem test_assemble_refuses :
    (assembleInstr (fun _ => some 0) .spritesheet [.reg 1, .label ['D']] = .error .illFormed) ∧
    (assembleInstr (fun _ => some 0) .inc [.reg 16] = .error .illFormed) ∧
    (assembleInstr (fun _ => some 0) .jmp [.const (2 ^ 32)] = .error .tooWide) ∧
    (assembleInstr (fun _ => some 0x10000) .ldW [.reg 1, .label ['D']] = .error .tooWide) ∧
    assembleInstr (fun _ => none) .jmp [.label ['D']] = .error .unknownLabel := by decide
theorem witness_Assembler : Statement.dw [0x10000] ∈ [Statement.ins .ret [], .dw [0x10000]] ∧
    (Statement.dw [0x10000]).wf = false := by decide

end Sys2Proof.Tests
end

namespace Sys2Proof.Machine

/-! ### The aliases NOOP and LEA of the assembler (30_encoding.md R87, R88) -/

/-! #### A change of pc alone, and OR of a register with itself -/

/-- What `setPc` leaves unchanged: every part that a frame names. -/
theorem keepsAllBut_setPc (s : State) (v : Word) : KeepsAllBut [] s (s.setPc v) := by
  intro p _
  cases p <;> simp [Part.same]

theorem State.setReg_reg_self (s : State) (r : Reg) : s.setReg r (s.reg r) = s := by
  simp [State.setReg, State.reg]

theorem exec_or (rA rB : Reg) (s : State) :
    exec (.or rA rB) s = .next ((s.setReg rA (s.reg rA ||| s.reg rB)).setPc (s.nextPc 1)) := rfl

/-- OR of a register with itself writes back the value the register holds. -/
theorem exec_or_self (r : Reg) (s : State) : exec (.or r r) s = .next (s.setPc (s.nextPc 1)) := by
  rw [exec_or, BitVec.or_self, State.setReg_reg_self]

theorem or_self_completes (r : Reg) (s : State) :
    Completes (.or r r) s fun t => t.pc = s.pc + 2#32 ∧ KeepsAllBut [] s t :=
  ⟨s.setPc (s.nextPc 1), exec_or_self r s, rfl, keepsAllBut_setPc s _⟩

/-- With both fields 0, every bit of the word is 0 (30_encoding.md R87). -/
theorem or_zero_zero_encodedAs : EncodedAs (.or 0 0) 0x0000#16 := ⟨fun _ => rfl, rfl⟩

/-! #### Operands the assembler takes -/

theorem asReg_of_lt {n : Nat} (h : n < 16) : asReg n = .ok (BitVec.ofNat 4 n) := if_pos h

theorem asNumber_label {look : Label → Option Nat} {l : Label} {v : Nat} (h : look l = some v) :
    asNumber look (.label l) = .ok v := by
  simp only [asNumber, h]

theorem asWord_of_asNumber {look : Label → Option Nat} {o : Operand} {v : Nat}
    (ho : asNumber look o = .ok v) (hv : v < 2 ^ 32) : asWord look o = .ok (BitVec.ofNat 32 v) := by
  unfold asWord
  rw [ho]
  exact if_pos hv

/-! #### The two spellings of the three-word LD.D -/

theorem assembleInstr_ldD_const {look : Label → Option Nat} {n v : Nat} (hn : n < 16) (hv : v < 2 ^ 32) :
    assembleInstr look .ldD [.reg n, .const v] = .ok (.ldDImm (BitVec.ofNat 4 n) (BitVec.ofNat 32 v)) := by
  have value : asWord look (.const v) = .ok (BitVec.ofNat 32 v) := asWord_of_asNumber rfl hv
  simp only [assembleInstr, asReg_of_lt hn, value]
  rfl

theorem assembleInstr_lea {look : Label → Option Nat} {n v : Nat} {l : Label} (hn : n < 16) (hv : v < 2 ^ 32)
    (hl : look l = some v) :
    assembleInstr look .lea [.reg n, .label l] = .ok (.ldDImm (BitVec.ofNat 4 n) (BitVec.ofNat 32 v)) := by
  simp only [assembleInstr, asReg_of_lt hn, asWord_of_asNumber (asNumber_label hl) hv]
  rfl

/-- Settles O58: `noop` is OR of r0 with itself, which writes back what r0 holds, and `lea` assembles to the LD.D
of the number its label stands for. -/
theorem noopAndLeaAliases : Obligations.NoopAndLeaAliases := by
  refine ⟨fun look s => ?noop, fun look n v l hn hv hl => ?lea, fun n => ?manual⟩
  case noop => exact ⟨rfl, rfl, or_zero_zero_encodedAs, fun _ => rfl, or_self_completes 0 s⟩
  case lea =>
    have lea := assembleInstr_lea hn hv hl
    exact ⟨lea, lea.trans (assembleInstr_ldD_const hn hv).symm⟩
  case manual => exact ⟨rfl, rfl⟩

end Sys2Proof.Machine

namespace Sys2Proof.Machine

/-! ### The LOGICOP group: AND, XOR and NOT (40_logic.md R102, R103, R104) -/

/-! #### The packed word of LOGICOP and IO, as its shifted fields and field by field -/

/-- The format of 30_encoding.md R62 and R70 written as R77 writes it: the register fields shifted to their places,
and the rest a constant. -/
theorem packShort_eq_or (rB rA : Reg) (sub : BitVec 3) (base : BitVec 4) :
    packShort rB rA sub base = fieldAt rB 11 ||| fieldAt rA 7 ||| (0#9 ++ sub ++ base) := by
  unfold packShort fieldAt
  ext k hk
  grind

@[simp] theorem field_packShort_base (rB rA : Reg) (sub : BitVec 3) (base : BitVec 4) :
    field (packShort rB rA sub base) 0 4 = base := extract_append_low _ base

@[simp] theorem field_packShort_sub (rB rA : Reg) (sub : BitVec 3) (base : BitVec 4) :
    field (packShort rB rA sub base) 4 3 = sub := by
  rw [field, packShort, extract_append_of_le _ base 4 3 (by decide)]
  exact extract_append_low _ sub

@[simp] theorem field_packShort_rA (rB rA : Reg) (sub : BitVec 3) (base : BitVec 4) :
    field (packShort rB rA sub base) 7 4 = rA := by
  rw [field, packShort, extract_append_of_le _ base 7 4 (by decide), extract_append_of_le _ sub 3 4 (by decide)]
  exact extract_append_low _ rA

@[simp] theorem field_packShort_rB (rB rA : Reg) (sub : BitVec 3) (base : BitVec 4) :
    field (packShort rB rA sub base) 11 4 = rB := by
  rw [field, packShort, extract_append_of_le _ base 11 4 (by decide), extract_append_of_le _ sub 7 4 (by decide),
    extract_append_of_le _ rA 4 4 (by decide)]
  exact extract_append_low _ rB

/-! #### Decoding a packed LOGICOP word -/

theorem decodeWords_packShort_zero (rB rA : Reg) (sub : BitVec 3) (w1 w2 : Half) :
    decodeWords (packShort rB rA sub 0) w1 w2 = decodeLogic (packShort rB rA sub 0) := by
  simp [decodeWords]

/-- What a LOGICOP instruction's canonical word is, from its arm of the encoder and its arm of the decoder. -/
theorem encodedAs_of_logic {i : Instr} {rB rA : Reg} {sub : BitVec 3}
    (encoded : ∀ n, encode n i = [packShort rB rA sub 0])
    (decoded : decodeLogic (packShort rB rA sub 0) = .ok i) :
    EncodedAs i (fieldAt rB 11 ||| fieldAt rA 7 ||| (0#9 ++ sub ++ 0#4)) := by
  rw [EncodedAs, ← packShort_eq_or]
  exact ⟨encoded, (decodeWords_packShort_zero rB rA sub _ _).trans decoded⟩

theorem and_encodedAs (rA rB : Reg) :
    EncodedAs (.and rA rB) (fieldAt rB 11 ||| fieldAt rA 7 ||| 0x0010#16) :=
  encodedAs_of_logic (sub := 1) (fun _ => rfl) (by simp [decodeLogic])

theorem xor_encodedAs (rA rB : Reg) :
    EncodedAs (.xor rA rB) (fieldAt rB 11 ||| fieldAt rA 7 ||| 0x0020#16) :=
  encodedAs_of_logic (sub := 2) (fun _ => rfl) (by simp [decodeLogic])

theorem not_encodedAs (rA rB : Reg) :
    EncodedAs (.not rA rB) (fieldAt rB 11 ||| fieldAt rA 7 ||| 0x0030#16) :=
  encodedAs_of_logic (sub := 3) (fun _ => rfl) (by simp [decodeLogic])

/-! #### A register write followed by the move to the next instruction -/

theorem Part.same.trans {p : Part} {s t u : State} (h : p.same s t) (h' : p.same t u) : p.same s u := by
  cases p <;> simp_all [Part.same]

/-- What `setReg` leaves unchanged: every part that a frame names but the registers. -/
theorem keepsAllBut_setReg (s : State) (r : Reg) (v : Word) : KeepsAllBut [.regs] s (s.setReg r v) := by
  intro p hp
  cases p
  case regs => exact absurd (List.mem_singleton_self _) hp
  all_goals simp [Part.same]

theorem writesReg_setReg_setPc (s : State) (r : Reg) (v : Word) (n : Nat) :
    WritesReg s ((s.setReg r v).setPc (s.nextPc n)) r v n [] where
  value := s.reg_setReg_same r v
  pc := rfl
  others j hj := s.reg_setReg_of_ne r j v hj
  frame p hp := (keepsAllBut_setReg s r v p hp).trans (keepsAllBut_setPc (s.setReg r v) _ p List.not_mem_nil)

/-- The rule of every instruction that does nothing but write one register and move on. -/
theorem resultIn_of_exec {i : Instr} {s : State} {r : Reg} {v : Word} {n : Nat}
    (run : exec i s = .next ((s.setReg r v).setPc (s.nextPc n))) : ResultIn i s r v n :=
  ⟨_, run, writesReg_setReg_setPc s r v n⟩

theorem exec_and (rA rB : Reg) (s : State) :
    exec (.and rA rB) s = .next ((s.setReg rA (s.reg rA &&& s.reg rB)).setPc (s.nextPc 1)) := rfl

theorem exec_xor (rA rB : Reg) (s : State) :
    exec (.xor rA rB) s = .next ((s.setReg rA (s.reg rA ^^^ s.reg rB)).setPc (s.nextPc 1)) := rfl

theorem exec_not (rA rB : Reg) (s : State) :
    exec (.not rA rB) s = .next ((s.setReg rA (~~~ s.reg rB)).setPc (s.nextPc 1)) := rfl

/-- Settles O1: each word is the packed one, whose fields give the operands back, and each meaning is one register
write with pc moved one word on. -/
theorem andXorNotResults : Obligations.AndXorNotResults := by
  intro s rA rB
  refine ⟨⟨and_encodedAs rA rB, ?and⟩, ⟨xor_encodedAs rA rB, ?xor⟩, ⟨not_encodedAs rA rB, ?not⟩⟩
  case and => exact resultIn_of_exec (exec_and rA rB s)
  case xor => exact resultIn_of_exec (exec_xor rA rB s)
  case not => exact resultIn_of_exec (exec_not rA rB s)

end Sys2Proof.Machine

namespace Sys2Proof.Machine

/-! ### The MATHOP group: IADD, ISUB, IMUL, INC and DEC (42_math.md R131, R132, R133, R137, R138) -/

/-! #### The packed word of MATHOP and MOV, as its shifted fields and field by field -/

/-- The format of 30_encoding.md R64 and R65 written as R77 writes it. -/
theorem packWide_eq_or (rB rA : Reg) (sub base : BitVec 4) :
    packWide rB rA sub base = fieldAt rB 12 ||| fieldAt rA 8 ||| (0#8 ++ sub ++ base) := by
  unfold packWide fieldAt
  ext k hk
  grind

@[simp] theorem field_packWide_base (rB rA : Reg) (sub base : BitVec 4) :
    field (packWide rB rA sub base) 0 4 = base := extract_append_low _ base

@[simp] theorem field_packWide_sub (rB rA : Reg) (sub base : BitVec 4) :
    field (packWide rB rA sub base) 4 4 = sub := by
  rw [field, packWide, extract_append_of_le _ base 4 4 (by decide)]
  exact extract_append_low _ sub

@[simp] theorem field_packWide_rA (rB rA : Reg) (sub base : BitVec 4) :
    field (packWide rB rA sub base) 8 4 = rA := by
  rw [field, packWide, extract_append_of_le _ base 8 4 (by decide), extract_append_of_le _ sub 4 4 (by decide)]
  exact extract_append_low _ rA

@[simp] theorem field_packWide_rB (rB rA : Reg) (sub base : BitVec 4) :
    field (packWide rB rA sub base) 12 4 = rB := by
  rw [field, packWide, extract_append_of_le _ base 12 4 (by decide), extract_append_of_le _ sub 8 4 (by decide)]
  exact extract_append_high rB rA

/-- A field that a mask keeps whole is the field of the masked word. -/
theorem field_eq_of_and_eq {w mask v : Half} {lo n : Nat} (masked : w &&& mask = v)
    (kept : field mask lo n = BitVec.allOnes n) : field w lo n = field v lo n := by
  rw [← masked, field, field, BitVec.extractLsb'_and]
  exact BitVec.and_allOnes.symm.trans (congrArg _ kept.symm)

/-! #### Decoding a MATHOP word -/

theorem decodeWords_eq_decodeMath {w : Half} (base : field w 0 4 = 2#4) (w1 w2 : Half) :
    decodeWords w w1 w2 = decodeMath w := by
  simp [decodeWords, base]

theorem decodeMath_iadd {w : Half} (sub : field w 4 4 = 0#4) :
    decodeMath w = .ok (.iadd (field w 8 4) (field w 12 4)) := by
  simp [decodeMath, sub]

theorem decodeMath_isub {w : Half} (sub : field w 4 4 = 1#4) :
    decodeMath w = .ok (.isub (field w 8 4) (field w 12 4)) := by
  simp [decodeMath, sub]

theorem decodeMath_imul {w : Half} (sub : field w 4 4 = 2#4) :
    decodeMath w = .ok (.imul (field w 8 4) (field w 12 4)) := by
  simp [decodeMath, sub]

theorem decodeMath_inc {w : Half} (sub : field w 4 4 = 6#4) :
    decodeMath w = .ok (.inc (field w 8 4)) := by
  simp [decodeMath, sub]

theorem decodeMath_dec {w : Half} (sub : field w 4 4 = 7#4) :
    decodeMath w = .ok (.dec (field w 8 4)) := by
  simp [decodeMath, sub]

/-- What a MATHOP instruction's canonical word is, from its arm of the encoder and its arm of the decoder. -/
theorem encodedAs_of_math {i : Instr} {rB rA : Reg} {sub : BitVec 4}
    (encoded : ∀ n, encode n i = [packWide rB rA sub 2])
    (decoded : decodeMath (packWide rB rA sub 2) = .ok i) :
    EncodedAs i (fieldAt rB 12 ||| fieldAt rA 8 ||| (0#8 ++ sub ++ 2#4)) := by
  rw [EncodedAs, ← packWide_eq_or]
  exact ⟨encoded, (decodeWords_eq_decodeMath (field_packWide_base rB rA sub 2) _ _).trans decoded⟩

/-- The same for an instruction without rB, whose field the encoder writes as zero (30_encoding.md R71). -/
theorem encodedAs_of_math_unary {i : Instr} {rA : Reg} {sub : BitVec 4}
    (encoded : ∀ n, encode n i = [packWide 0 rA sub 2])
    (decoded : decodeMath (packWide 0 rA sub 2) = .ok i) :
    EncodedAs i (fieldAt rA 8 ||| (0#8 ++ sub ++ 2#4)) := by
  have h := encodedAs_of_math encoded decoded
  rwa [show fieldAt 0 12 = 0#16 from rfl, BitVec.zero_or] at h

theorem iadd_encodedAs (rA rB : Reg) :
    EncodedAs (.iadd rA rB) (fieldAt rB 12 ||| fieldAt rA 8 ||| 0x0002#16) :=
  encodedAs_of_math (sub := 0) (fun _ => rfl) (by simp [decodeMath_iadd])

theorem isub_encodedAs (rA rB : Reg) :
    EncodedAs (.isub rA rB) (fieldAt rB 12 ||| fieldAt rA 8 ||| 0x0012#16) :=
  encodedAs_of_math (sub := 1) (fun _ => rfl) (by simp [decodeMath_isub])

theorem imul_encodedAs (rA rB : Reg) :
    EncodedAs (.imul rA rB) (fieldAt rB 12 ||| fieldAt rA 8 ||| 0x0022#16) :=
  encodedAs_of_math (sub := 2) (fun _ => rfl) (by simp [decodeMath_imul])

theorem inc_encodedAs (rA : Reg) : EncodedAs (.inc rA) (fieldAt rA 8 ||| 0x0062#16) :=
  encodedAs_of_math_unary (sub := 6) (fun _ => rfl) (by simp [decodeMath_inc])

theorem dec_encodedAs (rA : Reg) : EncodedAs (.dec rA) (fieldAt rA 8 ||| 0x0072#16) :=
  encodedAs_of_math_unary (sub := 7) (fun _ => rfl) (by simp [decodeMath_dec])

/-- The low byte of a MATHOP word fixes the group and the operation; the register fields are free. -/
theorem math_of_lowByte {w : Half} {sub : BitVec 4} (low : w &&& 0x00FF#16 = 0#8 ++ sub ++ 2#4)
    (w1 w2 : Half) : decodeWords w w1 w2 = decodeMath w ∧ field w 4 4 = sub := by
  have base : field w 0 4 = 2#4 := (field_eq_of_and_eq low rfl).trans (extract_append_low _ _)
  have wordSub : field w 4 4 = field (0#8 ++ sub ++ 2#4) 4 4 := field_eq_of_and_eq low rfl
  exact ⟨decodeWords_eq_decodeMath base w1 w2, wordSub.trans (field_packWide_sub 0 0 sub 2)⟩

theorem decodeWords_inc {w : Half} (low : w &&& 0x00FF#16 = 0x0062#16) (w1 w2 : Half) :
    decodeWords w w1 w2 = .ok (.inc (w.extractLsb' 8 4)) := by
  obtain ⟨group, sub⟩ := math_of_lowByte (sub := 6) low w1 w2
  exact group.trans (decodeMath_inc sub)

theorem decodeWords_dec {w : Half} (low : w &&& 0x00FF#16 = 0x0072#16) (w1 w2 : Half) :
    decodeWords w w1 w2 = .ok (.dec (w.extractLsb' 8 4)) := by
  obtain ⟨group, sub⟩ := math_of_lowByte (sub := 7) low w1 w2
  exact group.trans (decodeMath_dec sub)

/-! #### The product and the difference of two words as exact results reduced modulo 2^32 -/

theorem mul_eq_ofNat (a b : Word) : a * b = BitVec.ofNat 32 (a.toNat * b.toNat) := by
  rw [BitVec.ofNat_mul, BitVec.ofNat_toNat, BitVec.ofNat_toNat, BitVec.setWidth_eq, BitVec.setWidth_eq]

theorem sub_eq_ofInt (a b : Word) : a - b = BitVec.ofInt 32 (a.toNat - b.toNat : Int) := by
  rw [Int.sub_eq_add_neg, BitVec.ofInt_add, BitVec.ofInt_neg, BitVec.ofInt_natCast, BitVec.ofInt_natCast,
    BitVec.ofNat_toNat, BitVec.ofNat_toNat, BitVec.setWidth_eq, BitVec.setWidth_eq, BitVec.sub_eq_add_neg]

/-! #### One register write and the move to the next instruction -/

theorem exec_iadd (rA rB : Reg) (s : State) :
    exec (.iadd rA rB) s = .next ((s.setReg rA (s.reg rA + s.reg rB)).setPc (s.nextPc 1)) := rfl

theorem exec_isub (rA rB : Reg) (s : State) :
    exec (.isub rA rB) s = .next ((s.setReg rA (s.reg rA - s.reg rB)).setPc (s.nextPc 1)) := rfl

theorem exec_imul (rA rB : Reg) (s : State) :
    exec (.imul rA rB) s = .next ((s.setReg rA (s.reg rA * s.reg rB)).setPc (s.nextPc 1)) := rfl

theorem exec_inc (rA : Reg) (s : State) :
    exec (.inc rA) s = .next ((s.setReg rA (s.reg rA + 1#32)).setPc (s.nextPc 1)) := rfl

theorem exec_dec (rA : Reg) (s : State) :
    exec (.dec rA) s = .next ((s.setReg rA (s.reg rA - 1#32)).setPc (s.nextPc 1)) := rfl

/-- Settles O6: each word is the packed one, whose fields give the operands back; the low byte alone makes a word
INC or DEC; and each meaning is one register write, whose word operation is the exact result modulo 2^32. -/
theorem addSubMulIncDecResults : Obligations.AddSubMulIncDecResults := by
  intro s rA rB
  refine ⟨⟨iadd_encodedAs rA rB, ?iadd⟩, ⟨isub_encodedAs rA rB, ?isub⟩, ⟨imul_encodedAs rA rB, ?imul⟩,
    ⟨inc_encodedAs rA, fun w w1 w2 low => decodeWords_inc low w1 w2, ?inc⟩,
    ⟨dec_encodedAs rA, fun w w1 w2 low => decodeWords_dec low w1 w2, ?dec⟩⟩
  case iadd => exact BitVec.add_def (s.reg rA) (s.reg rB) ▸ resultIn_of_exec (exec_iadd rA rB s)
  case isub => exact sub_eq_ofInt (s.reg rA) (s.reg rB) ▸ resultIn_of_exec (exec_isub rA rB s)
  case imul => exact mul_eq_ofNat (s.reg rA) (s.reg rB) ▸ resultIn_of_exec (exec_imul rA rB s)
  case inc => exact BitVec.add_def (s.reg rA) 1#32 ▸ resultIn_of_exec (exec_inc rA s)
  case dec => exact sub_eq_ofInt (s.reg rA) 1#32 ▸ resultIn_of_exec (exec_dec rA s)

end Sys2Proof.Machine

namespace Sys2Proof.Machine

/-! ### The constant loads of the MOV group: LD.D and LD.B (43_memory_access.md R145, R148) -/

/-! #### The words of a constant load -/

/-- The packed word of an instruction without rB, whose field the encoder writes as zero (30_encoding.md R71). -/
theorem packWide_zero_eq_or (rA : Reg) (sub base : BitVec 4) :
    packWide 0 rA sub base = fieldAt rA 8 ||| (0#8 ++ sub ++ base) := by
  rw [packWide_eq_or, show fieldAt 0 12 = 0#16 from rfl, BitVec.zero_or]

theorem encode_ldDImm (n : RegBranchLen) (rA : Reg) (d : Word) :
    encode n (.ldDImm rA d) = [fieldAt rA 8 ||| 0x0043#16, d.extractLsb' 16 16, d.extractLsb' 0 16] :=
  congrArg (· :: operandWords d) (packWide_zero_eq_or rA 4 3)

theorem encode_ldBImm (n : RegBranchLen) (rA : Reg) (c : Half) :
    encode n (.ldBImm rA c) = [fieldAt rA 8 ||| 0x0073#16, c] :=
  congrArg (· :: [c]) (packWide_zero_eq_or rA 7 3)

/-! #### Decoding a MOV word -/

theorem decodeWords_eq_decodeMov {w : Half} (base : field w 0 4 = 3#4) (w1 w2 : Half) :
    decodeWords w w1 w2 = decodeMov w w1 w2 := by
  simp [decodeWords, base]

theorem decodeMov_ldDImm {w : Half} (sub : field w 4 4 = 4#4) (w1 w2 : Half) :
    decodeMov w w1 w2 = .ok (.ldDImm (field w 8 4) (w1 ++ w2)) := by
  simp [decodeMov, sub]

theorem decodeMov_ldBImm {w : Half} (sub : field w 4 4 = 7#4) (w1 w2 : Half) :
    decodeMov w w1 w2 = .ok (.ldBImm (field w 8 4) w1) := by
  simp [decodeMov, sub]

/-- The low byte of a MATHOP or MOV word is its base and sub fields (30_encoding.md R64, R65). -/
theorem base_sub_of_lowByte {w : Half} {sub base : BitVec 4} (low : w &&& 0x00FF#16 = 0#8 ++ sub ++ base) :
    field w 0 4 = base ∧ field w 4 4 = sub :=
  ⟨(field_eq_of_and_eq low rfl).trans (field_packWide_base 0 0 sub base),
    (field_eq_of_and_eq low rfl).trans (field_packWide_sub 0 0 sub base)⟩

theorem decodeWords_ldDImm {w : Half} (low : w &&& 0x00FF#16 = 0x0043#16) (w1 w2 : Half) :
    decodeWords w w1 w2 = .ok (.ldDImm (w.extractLsb' 8 4) (w1 ++ w2)) := by
  obtain ⟨base, sub⟩ := base_sub_of_lowByte (sub := 4) (base := 3) low
  exact (decodeWords_eq_decodeMov base w1 w2).trans (decodeMov_ldDImm sub w1 w2)

theorem decodeWords_ldBImm {w : Half} (low : w &&& 0x00FF#16 = 0x0073#16) (w1 w2 : Half) :
    decodeWords w w1 w2 = .ok (.ldBImm (w.extractLsb' 8 4) w1) := by
  obtain ⟨base, sub⟩ := base_sub_of_lowByte (sub := 7) (base := 3) low
  exact (decodeWords_eq_decodeMov base w1 w2).trans (decodeMov_ldBImm sub w1 w2)

/-! #### The register write -/

theorem toNat_append_eq_add {m n : Nat} (x : BitVec m) (y : BitVec n) :
    (x ++ y).toNat = x.toNat * 2 ^ n + y.toNat := by
  rw [BitVec.toNat_append, ← Nat.shiftLeft_add_eq_or_of_lt y.isLt, Nat.shiftLeft_eq]

/-- Bits 31:8 of the old value with a byte below them, as the number they make. -/
theorem append_eq_low8Result (old : Word) (b : Byte) : old.extractLsb' 8 24 ++ b = low8Result old b := by
  have high : (old.extractLsb' 8 24).toNat = old.toNat / 2 ^ 8 := by
    rw [BitVec.extractLsb'_toNat, Nat.shiftRight_eq_div_pow]
    omega
  rw [low8Result, ← high, ← toNat_append_eq_add, BitVec.ofNat_toNat, BitVec.setWidth_eq]

theorem State.writeLow8_eq (s : State) (i : Reg) (b : Byte) :
    s.writeLow8 i b = s.setReg i (low8Result (s.reg i) b) := by
  rw [← append_eq_low8Result]
  rfl

theorem exec_ldDImm (rA : Reg) (d : Word) (s : State) :
    exec (.ldDImm rA d) s = .next ((s.setReg rA d).setPc (s.nextPc 3)) := rfl

theorem exec_ldBImm (rA : Reg) (c : Half) (s : State) :
    exec (.ldBImm rA c) s =
      .next ((s.setReg rA (low8Result (s.reg rA) (c.extractLsb' 0 8))).setPc (s.nextPc 2)) := by
  rw [← State.writeLow8_eq]
  rfl

/-- Settles O25: each first word is the packed one with rB zero; its low byte alone makes a word the constant load,
and the words after it are the constant; and each meaning is one register write, LD.B's leaving bits 31:8. -/
theorem constantLoadResults : Obligations.ConstantLoadResults := by
  intro s rA d c
  refine ⟨⟨fun n => encode_ldDImm n rA d, fun w w1 w2 low => decodeWords_ldDImm low w1 w2, ?ldD⟩,
    ⟨fun n => encode_ldBImm n rA c, fun w w1 w2 low => decodeWords_ldBImm low w1 w2, ?ldB⟩⟩
  case ldD => exact resultIn_of_exec (exec_ldDImm rA d s)
  case ldB => exact resultIn_of_exec (exec_ldBImm rA c s)

end Sys2Proof.Machine

namespace Sys2Proof.Machine

/-! ### HALT (44_ret_halt.md R162) -/

/-! #### Decoding a RETOP word -/

theorem decodeWords_eq_decodeRet {w : Half} (base : field w 0 4 = 4#4) (w1 w2 : Half) :
    decodeWords w w1 w2 = decodeRet w := by
  simp [decodeWords, base]

theorem decodeRet_halt {w : Half} (bit : field w 4 1 = 1#1) : decodeRet w = .ok .halt := by
  simp [decodeRet, bit]

/-- The five low bits of a RETOP word are its base and halt fields; the rest is ignored (30_encoding.md R66). -/
theorem decodeWords_halt {w : Half} (low : w &&& 0x001F#16 = 0x0014#16) (w1 w2 : Half) :
    decodeWords w w1 w2 = .ok .halt :=
  (decodeWords_eq_decodeRet (field_eq_of_and_eq low rfl) w1 w2).trans (decodeRet_halt (field_eq_of_and_eq low rfl))

theorem halt_encodedAs : EncodedAs .halt 0x0014#16 := ⟨fun _ => rfl, decodeWords_halt rfl _ _⟩

/-! #### The frame of a halt, and of a run of the video output alone -/

theorem Part.same.refl (p : Part) (s : State) : p.same s s := by
  cases p <;> simp [Part.same]

theorem KeepsAllBut.refl (ps : List Part) (s : State) : KeepsAllBut ps s s := fun p _ => Part.same.refl p s

theorem KeepsAllBut.trans {ps : List Part} {s t u : State} (h : KeepsAllBut ps s t) (h' : KeepsAllBut ps t u) :
    KeepsAllBut ps s u := fun p hp => (h p hp).trans (h' p hp)

theorem exec_halt (s : State) : exec .halt s = .next s.setHalted := rfl

theorem keepsAllBut_setHalted (s : State) : KeepsAllBut [.halted] s s.setHalted := by
  intro p hp
  cases p
  case halted => exact absurd (List.mem_singleton_self _) hp
  all_goals simp [Part.same]

theorem keepsAllBut_videoStep (s : State) : KeepsAllBut [.video] s s.videoStep := by
  intro p hp
  cases p
  case video => exact absurd (List.mem_singleton_self _) hp
  all_goals simp [Part.same]

/-- While HALTED is set no instruction runs (10_state.md R23), and the video output goes on. -/
theorem step_of_halted {s : State} (h : s.halted = true) : step s = .next s.videoStep :=
  step_eq_next.2 ⟨s, rfl, .inl ⟨h, rfl⟩⟩

/-- The invariant of a run that begins with HALTED set. -/
theorem reaches_of_halted {s t : State} (run : Reaches s t) (h : s.halted = true) :
    t.halted = true ∧ t.pc = s.pc ∧ KeepsAllBut [.video] s t := by
  induction run with
  | here => exact ⟨h, rfl, .refl _ s⟩
  | @more t u _ next ih =>
    obtain ⟨halted, pc, frame⟩ := ih
    obtain rfl : t.videoStep = u := Host.Outcome.next.inj ((step_of_halted halted).symm.trans next)
    exact ⟨halted, pc, frame.trans (keepsAllBut_videoStep t)⟩

/-- The reset signal is a cold start (70_reset_and_hazards.md R220), and loading the image writes SRAM alone. -/
theorem State.resetSignal_halted (s : State) (image : List Host.Cell) : (s.resetSignal image).halted = false := rfl

/-- Settles O17: the five low bits alone make a word HALT; its meaning sets HALTED; and by induction on the run each
step after it is one of the video output alone. -/
theorem haltStops : Obligations.HaltStops := by
  refine ⟨fun w w1 w2 low => decodeWords_halt low w1 w2, fun s => ⟨halt_encodedAs, s.setHalted, exec_halt s, ?_⟩⟩
  have halted : s.setHalted.halted = true := rfl
  exact ⟨halted, rfl, keepsAllBut_setHalted s, fun u run => reaches_of_halted run halted,
    s.setHalted.resetSignal_halted⟩

end Sys2Proof.Machine

namespace Sys2Proof.Machine

/-! ### SPRITESHEET (47_io.md R190) -/

/-! #### The words of an IO instruction -/

/-- The packed word of an instruction without rB, whose field the encoder writes as zero (30_encoding.md R71). -/
theorem packShort_zero_eq_or (rA : Reg) (sub : BitVec 3) (base : BitVec 4) :
    packShort 0 rA sub base = fieldAt rA 7 ||| (0#9 ++ sub ++ base) := by
  rw [packShort_eq_or, show fieldAt 0 11 = 0#16 from rfl, BitVec.zero_or]

theorem decodeWords_eq_decodeIo {w : Half} (base : field w 0 4 = 8#4) (w1 w2 : Half) :
    decodeWords w w1 w2 = decodeIo w w1 := by
  simp [decodeWords, base]

theorem decodeIo_spritesheet {w : Half} (sub : field w 4 3 = 6#3) (w1 : Half) :
    decodeIo w w1 = .ok (.spritesheet (field w 7 4)) := by
  simp [decodeIo, sub]

/-- The seven low bits of a LOGICOP or IO word are its base and sub fields (30_encoding.md R62, R70). -/
theorem base_sub_of_low7 {w : Half} {sub : BitVec 3} {base : BitVec 4}
    (low : w &&& 0x007F#16 = 0#9 ++ sub ++ base) : field w 0 4 = base ∧ field w 4 3 = sub :=
  ⟨(field_eq_of_and_eq low rfl).trans (field_packShort_base 0 0 sub base),
    (field_eq_of_and_eq low rfl).trans (field_packShort_sub 0 0 sub base)⟩

theorem decodeWords_spritesheet {w : Half} (low : w &&& 0x007F#16 = 0x0068#16) (w1 w2 : Half) :
    decodeWords w w1 w2 = .ok (.spritesheet (w.extractLsb' 7 4)) := by
  obtain ⟨base, sub⟩ := base_sub_of_low7 (sub := 6) (base := 8) low
  exact (decodeWords_eq_decodeIo base w1 w2).trans (decodeIo_spritesheet sub w1)

/-- What the canonical word of a one-word IO instruction without rB is, from its arm of the encoder and its arm of
the decoder. -/
theorem encodedAs_of_io_unary {i : Instr} {rA : Reg} {sub : BitVec 3}
    (encoded : ∀ n, encode n i = [packShort 0 rA sub 8])
    (decoded : decodeIo (packShort 0 rA sub 8) 0#16 = .ok i) :
    EncodedAs i (fieldAt rA 7 ||| (0#9 ++ sub ++ 8#4)) := by
  rw [EncodedAs, ← packShort_zero_eq_or]
  exact ⟨encoded, (decodeWords_eq_decodeIo (field_packShort_base 0 rA sub 8) _ _).trans decoded⟩

theorem spritesheet_encodedAs (rA : Reg) : EncodedAs (.spritesheet rA) (fieldAt rA 7 ||| 0x0068#16) :=
  encodedAs_of_io_unary (sub := 6) (fun _ => rfl) (by simp [decodeIo_spritesheet])

/-! #### The pointer recorded, and the pointer kept by every other instruction -/

/-- What `setSheet` leaves unchanged: every part that a frame names but the sprite registers. -/
theorem keepsAllBut_setSheet (s : State) (v : Word) : KeepsAllBut [.sprites] s (s.setSheet v) := by
  intro p hp
  cases p
  case sprites => exact absurd (List.mem_singleton_self _) hp
  all_goals simp [Part.same]

theorem exec_spritesheet (rA : Reg) (s : State) :
    exec (.spritesheet rA) s = .next ((s.setSheet (s.reg rA)).setPc (s.nextPc 1)) := rfl

theorem spritesheet_completes (rA : Reg) (s : State) :
    Completes (.spritesheet rA) s fun t => t.pc = s.pc + 2#32 ∧ t.spriteSheetPtr = s.reg rA ∧
      t.spriteTablePtr = s.spriteTablePtr ∧ t.spriteCount = s.spriteCount ∧ KeepsAllBut [.sprites] s t := by
  refine ⟨_, exec_spritesheet rA s, rfl, rfl, rfl, rfl, fun p hp => ?frame⟩
  exact (keepsAllBut_setSheet s (s.reg rA) p hp).trans (keepsAllBut_setPc _ _ p List.not_mem_nil)

/-- The three instructions that store keep the pointer by the frame of a store; every other one but SPRITESHEET by
what its updates leave unchanged. -/
theorem Effect.spriteSheetPtr_eq {s t : State} {i : Instr} (effect : Effect s i t)
    (other : ∀ rA, i ≠ .spritesheet rA) : t.spriteSheetPtr = s.spriteSheetPtr := by
  cases effect
  case spritesheet rA => exact absurd rfl (other rA)
  case stB stored => exact (store8_frame stored).spriteSheetPtr
  case stW stored => exact (store16_frame stored).spriteSheetPtr
  case push stored => exact (storeSlot_frame stored).spriteSheetPtr
  all_goals simp

/-- Settles O44: the word is the packed one with rB zero, and its seven low bits alone make a word SPRITESHEET; its
meaning is one write of the pointer; and no other effect of an instruction writes it. -/
theorem spritesheetResult : Obligations.SpritesheetResult :=
  ⟨fun s rA => ⟨spritesheet_encodedAs rA, spritesheet_completes rA s⟩,
    fun _ w1 w2 low => decodeWords_spritesheet low w1 w2,
    fun _ _ _ run other => (exec_effect run).spriteSheetPtr_eq other⟩

end Sys2Proof.Machine

namespace Sys2Proof.Machine

/-! ### A step runs the decoded instruction (20_memory.md R41; 30_encoding.md R72) -/

/-! #### The words that bytes hold -/

theorem length_gatherWords (order : ByteOrder) : ∀ bytes : List Byte,
    (gatherWords order bytes).length = bytes.length / 2
  | [] | [_] => by simp [gatherWords]
  | b0 :: b1 :: rest => by
    simp only [gatherWords, List.length_cons, length_gatherWords order rest]
    omega

/-- Word `k` is made of the bytes `2 * k` and `2 * k + 1`. -/
theorem getElem?_gatherWords {order : ByteOrder} {bytes : List Byte} {k : Nat} {w : Half}
    (h : (gatherWords order bytes)[k]? = some w) :
    ∃ b0 b1, bytes[2 * k]? = some b0 ∧ bytes[2 * k + 1]? = some b1 ∧ w = joinHalf order b0 b1 := by
  induction bytes using gatherWords.induct generalizing k with
  | case1 b0 b1 rest ih =>
    cases k with
    | zero => exact ⟨b0, b1, rfl, rfl, by simpa [gatherWords] using h.symm⟩
    | succ k => exact ih h
  | case2 bytes short => simp [gatherWords] at h

/-- What a decoded instruction says of its bytes. -/
theorem decode_eq_ok {order : ByteOrder} {n : RegBranchLen} {bytes rest : List Byte} {i : Instr}
    (h : decode order n bytes = .ok (i, rest)) :
    ∃ w more, gatherWords order bytes = w :: more ∧ decodeWords w (more.getD 0 0#16) (more.getD 1 0#16) = .ok i ∧
      i.words n ≤ more.length + 1 ∧ rest = bytes.drop (2 * i.words n) := by
  unfold decode at h
  split at h
  · cases h
  rename_i w more words
  split at h
  · cases h
  rename_i j decoded
  split_ifs at h with long
  obtain ⟨rfl, rfl⟩ := Prod.mk.inj (Except.ok.inj h)
  exact ⟨w, more, words, decoded, long, rfl⟩

/-! #### Fetching words that stand at pc -/

theorem isOdd_ofNat_double (k : Nat) : isOdd (BitVec.ofNat 32 (2 * k)) = false := by
  rw [isOdd_eq, BitVec.toNat_ofNat, decide_eq_false_iff_not]
  omega

/-- Every word of the code at pc is fetched. -/
theorem fetch16_of_holdsCode {s : State} {bytes : List Byte} (code : s.HoldsCode bytes) {k : Nat} {w : Half}
    (word : (gatherWords s.cfg.wordByteOrder bytes)[k]? = some w) : s.fetch16 (s.nextPc k) = .ok w := by
  obtain ⟨b0, b1, h0, h1, rfl⟩ := getElem?_gatherWords word
  obtain ⟨inside, -⟩ := List.getElem?_eq_some_iff.1 h1
  have next (j : Nat) : s.nextPc k + BitVec.ofNat 32 j = s.pc + BitVec.ofNat 32 (2 * k + j) := by
    rw [State.nextPc, BitVec.add_assoc, BitVec.ofNat_add]
  have pcBound : s.pc.toNat + bytes.length ≤ 0x80000 := code.inside
  refine State.fetch16_eq_ok.2 ⟨?even, fun b hb => ?region, fun b hb => ?fetchable,
    State.sramHalf_eq_some.2 ⟨b0, b1, code.bytes _ _ h0, ?second, rfl⟩⟩
  case even => exact (isOdd_add_even (isOdd_ofNat_double k)).trans code.even
  case region =>
    obtain ⟨j, hj, rfl⟩ := mem_span.1 hb
    rw [next, region_eq_sram, BitVec.toNat_add, BitVec.toNat_ofNat]
    omega
  case fetchable =>
    obtain ⟨j, hj, rfl⟩ := mem_span.1 hb
    rw [next]
    exact code.fetchable _ (by omega)
  case second =>
    rw [show 1#32 = BitVec.ofNat 32 1 from rfl, next]
    exact code.bytes _ _ h1

/-- With no bytes after the instruction's own, an extra word is the next word there is, or none and not fetched. -/
theorem extraWord_of_holdsCode {s : State} {bytes : List Byte} (code : s.HoldsCode bytes) (k : Nat) :
    s.extraWord (gatherWords s.cfg.wordByteOrder bytes).length k =
      .ok ((gatherWords s.cfg.wordByteOrder bytes).getD k 0#16) := by
  rw [extraWord_eq_ok, List.getD_eq_getElem?_getD]
  rcases Nat.lt_or_ge k (gatherWords s.cfg.wordByteOrder bytes).length with inside | past
  · refine .inl ⟨inside, fetch16_of_holdsCode code ?_⟩
    rw [List.getElem?_eq_getElem inside, Option.getD_some]
  · exact .inr ⟨past, by rw [List.getElem?_eq_none past, Option.getD_none]⟩

/-- The converse of `fetchInstr_eq_ok`: the words of an instruction are enough to fetch it, since the first alone
tells how many there are. -/
theorem fetchInstr_of_words {s : State} {i : Instr} {w w1 w2 : Half} (first : s.fetch16 s.pc = .ok w)
    (second : s.extraWord (i.words s.cfg.branchRegLen) 1 = .ok w1)
    (third : s.extraWord (i.words s.cfg.branchRegLen) 2 = .ok w2) (decoded : decodeWords w w1 w2 = .ok i) :
    s.fetchInstr = .ok i := by
  have length := decodeWords_words w w1 w2 s.cfg.branchRegLen
  rw [decoded] at length
  cases alone : decodeWords w 0#16 0#16 with
  | error e =>
    rw [alone] at length
    cases length
  | ok j =>
    rw [alone] at length
    have words : i.words s.cfg.branchRegLen = j.words s.cfg.branchRegLen := Except.ok.inj length
    rw [words] at second third
    simp only [State.fetchInstr, bind, Except.bind, first, decodeFetched_eq_ok.2 alone, second, third,
      decodeFetched_eq_ok.2 decoded]

/-- Code at pc that decodes to one instruction and nothing more is fetched as it. -/
theorem fetchInstr_of_holdsCode {s : State} {bytes : List Byte} {i : Instr} (code : s.HoldsCode bytes)
    (decoded : decode s.cfg.wordByteOrder s.cfg.branchRegLen bytes = .ok (i, [])) : s.fetchInstr = .ok i := by
  obtain ⟨w, more, words, decoded, atLeast, noMore⟩ := decode_eq_ok decoded
  have atMost : bytes.length ≤ 2 * i.words s.cfg.branchRegLen := List.drop_eq_nil_iff.1 noMore.symm
  have half := length_gatherWords s.cfg.wordByteOrder bytes
  have exactly : i.words s.cfg.branchRegLen = (gatherWords s.cfg.wordByteOrder bytes).length := by
    rw [words, List.length_cons] at half ⊢
    omega
  have extra (k : Nat) : s.extraWord (i.words s.cfg.branchRegLen) (k + 1) = .ok (more.getD k 0#16) := by
    rw [exactly, extraWord_of_holdsCode code, words, List.getD_cons_succ]
  have first : s.fetch16 (s.nextPc 0) = .ok w := fetch16_of_holdsCode code (by rw [words, List.getElem?_cons_zero])
  rw [State.nextPc, Nat.mul_zero, BitVec.add_zero] at first
  exact fetchInstr_of_words first (extra 0) (extra 1) decoded

/-- While the CPU is not halted, a step is the meaning of the instruction fetched beside one video step. -/
theorem step_of_fetchInstr {s : State} {i : Instr} (running : s.halted = false) (fetched : s.fetchInstr = .ok i) :
    step s = withVideo (exec i s) := by
  simp [step, running, fetched]

/-- Settles O51: the words that the bytes hold are fetched one by one, as many as the instruction is long, and
decode to it. -/
theorem stepRunsDecodedInstruction : Obligations.StepRunsDecodedInstruction := by
  intro s i bytes running code decoded
  rw [step_of_fetchInstr running (fetchInstr_of_holdsCode code decoded)]
  cases exec i s <;> rfl

end Sys2Proof.Machine

namespace Sys2Proof.Machine

/-! ### Decoding what the encoder writes (30_encoding.md R62 to R73, R77) -/

/-! #### The fields of a packed BRANCH, STACK and TEST word -/

@[simp] theorem field_packBranch_base (mode call : BitVec 1) (rB rA : Reg) (cond : BitVec 2) :
    field (packBranch mode call rB rA cond) 0 4 = 1#4 := extract_append_low _ 1#4

@[simp] theorem field_packBranch_cond (mode call : BitVec 1) (rB rA : Reg) (cond : BitVec 2) :
    field (packBranch mode call rB rA cond) 4 2 = cond := by
  rw [field, packBranch, extract_append_of_le _ 1#4 4 2 (by decide)]
  exact extract_append_low _ cond

@[simp] theorem field_packBranch_rA (mode call : BitVec 1) (rB rA : Reg) (cond : BitVec 2) :
    field (packBranch mode call rB rA cond) 6 4 = rA := by
  rw [field, packBranch, extract_append_of_le _ 1#4 6 4 (by decide), extract_append_of_le _ cond 2 4 (by decide)]
  exact extract_append_low _ rA

@[simp] theorem field_packBranch_rB (mode call : BitVec 1) (rB rA : Reg) (cond : BitVec 2) :
    field (packBranch mode call rB rA cond) 10 4 = rB := by
  rw [field, packBranch, extract_append_of_le _ 1#4 10 4 (by decide), extract_append_of_le _ cond 6 4 (by decide),
    extract_append_of_le _ rA 4 4 (by decide)]
  exact extract_append_low _ rB

@[simp] theorem field_packBranch_form (mode call : BitVec 1) (rB rA : Reg) (cond : BitVec 2) :
    field (packBranch mode call rB rA cond) 14 2 = mode ++ call := by
  rw [field, packBranch, extract_append_of_le _ 1#4 14 2 (by decide), extract_append_of_le _ cond 10 2 (by decide),
    extract_append_of_le _ rA 8 2 (by decide), extract_append_of_le _ rB 4 2 (by decide)]
  exact extract_all (mode ++ call)

theorem field_stack_base (rA : Reg) (pop : BitVec 1) : field (0#7 ++ rA ++ pop ++ 5#4) 0 4 = 5#4 :=
  extract_append_low _ 5#4

theorem field_stack_pop (rA : Reg) (pop : BitVec 1) : field (0#7 ++ rA ++ pop ++ 5#4) 4 1 = pop := by
  rw [field, extract_append_of_le _ 5#4 4 1 (by decide)]
  exact extract_append_low _ pop

theorem field_stack_rA (rA : Reg) (pop : BitVec 1) : field (0#7 ++ rA ++ pop ++ 5#4) 5 4 = rA := by
  rw [field, extract_append_of_le _ 5#4 5 4 (by decide), extract_append_of_le _ pop 1 4 (by decide)]
  exact extract_append_low _ rA

theorem field_test_base (rA : Reg) (mask : FlagBits) : field (0#2 ++ rA ++ mask ++ 6#4) 0 4 = 6#4 :=
  extract_append_low _ 6#4

theorem field_test_mask (rA : Reg) (mask : FlagBits) : field (0#2 ++ rA ++ mask ++ 6#4) 4 6 = mask := by
  rw [field, extract_append_of_le _ 6#4 4 6 (by decide)]
  exact extract_append_low _ mask

theorem field_test_rA (rA : Reg) (mask : FlagBits) : field (0#2 ++ rA ++ mask ++ 6#4) 10 4 = rA := by
  rw [field, extract_append_of_le _ 6#4 10 4 (by decide), extract_append_of_le _ mask 6 4 (by decide)]
  exact extract_append_low _ rA

/-! #### The words of every instruction decode to it -/

/-- The two words of a 32-bit operand are its two halves (30_encoding.md R73 c). -/
theorem append_operandWords (v : Word) : v.extractLsb' 16 16 ++ v.extractLsb' 0 16 = v :=
  append_extract (m := 16) (n := 16) v

theorem decodeWords_encode (n : RegBranchLen) (i : Instr) (rest : List Half) :
    decodeWords ((encode n i ++ rest).getD 0 0#16) ((encode n i ++ rest).getD 1 0#16)
      ((encode n i ++ rest).getD 2 0#16) = .ok i := by
  cases i
  case or | and | xor | not | bsl | bsr | bswap => simp [encode, decodeWords, decodeLogic]
  case jmpR | jmpifR | jmpifnotR | callR | callifR | callifnotR => simp [encode, decodeWords, decodeBranch]
  case jmpI | jmpifI | jmpifnotI | callI | callifI | callifnotI =>
    simp [encode, operandWords, append_operandWords, decodeWords, decodeBranch]
  case iadd | isub | imul | idiv | imod | ineg | inc | dec => simp [encode, decodeWords, decodeMath]
  case stW | ldWMem | cpW | ldWImm | stB | ldBMem | ldBImm | ldDMem => simp [encode, decodeWords, decodeMov]
  case ldDImm => simp [encode, operandWords, append_operandWords, decodeWords, decodeMov]
  case ret | halt => simp [encode, decodeWords, decodeRet, field]
  case push | pop => simp [encode, decodeWords, decodeStack, field_stack_base, field_stack_pop, field_stack_rA]
  case test => simp [encode, decodeWords, decodeTest, field_test_base, field_test_mask, field_test_rA]
  case cmp rA rB =>
    show decodeWords (packWide 0 rB rA 7) _ _ = _
    simp [decodeWords, decodeCmp]
  case vsync | input | output | fsel | clf | sprite | spritesheet => simp [encode, decodeWords, decodeIo]

/-- One statement for all of the family `Laws.EncodeLength`, whose register-mode branches have the tail that
`BRANCH_REG_LEN` gives them. -/
theorem length_encode (n : RegBranchLen) (i : Instr) : (encode n i).length = i.words n := by
  cases i
  case jmpR | jmpifR | jmpifnotR | callR | callifR | callifnotR => cases n <;> rfl
  all_goals rfl

theorem layWords_cons (order : ByteOrder) (w : Half) (ws : List Half) :
    layWords order (w :: ws) = firstByte order w :: secondByte order w :: layWords order ws := rfl

theorem length_layWords (order : ByteOrder) (ws : List Half) : (layWords order ws).length = 2 * ws.length := by
  induction ws with
  | nil => rfl
  | cons w ws ih =>
    simp only [layWords_cons, List.length_cons, ih]
    omega

/-- Words laid out in memory and gathered again, whatever bytes follow. -/
theorem gatherWords_layWords_append (order : ByteOrder) (ws : List Half) (rest : List Byte) :
    gatherWords order (layWords order ws ++ rest) = ws ++ gatherWords order rest := by
  induction ws with
  | nil => rfl
  | cons w ws ih => simp only [layWords_cons, List.cons_append, gatherWords, joinHalf_split, ih]

theorem length_encodeBytes (order : ByteOrder) (n : RegBranchLen) (i : Instr) :
    (encodeBytes order n i).length = 2 * i.words n := by
  rw [encodeBytes, length_layWords, length_encode]

/-- The converse of `decode_eq_ok`. -/
theorem decode_of_words {order : ByteOrder} {n : RegBranchLen} {bytes : List Byte} {i : Instr} {ws : List Half}
    (words : gatherWords order bytes = ws) (enough : i.words n ≤ ws.length)
    (decoded : decodeWords (ws.getD 0 0#16) (ws.getD 1 0#16) (ws.getD 2 0#16) = .ok i) :
    decode order n bytes = .ok (i, bytes.drop (2 * i.words n)) := by
  cases ws with
  | nil => exact absurd enough (Nat.not_le.2 (words_bounds i n).1)
  | cons w more =>
    simp only [List.getD_cons_zero, List.getD_cons_succ] at decoded
    simp only [decode, words, decoded]
    exact if_pos enough

/-- The bytes of an instruction decode to it, and the bytes after it are left over. -/
theorem decode_encodeBytes_append (order : ByteOrder) (n : RegBranchLen) (i : Instr) (rest : List Byte) :
    decode order n (encodeBytes order n i ++ rest) = .ok (i, rest) := by
  have enough : i.words n ≤ (encode n i ++ gatherWords order rest).length := by
    rw [List.length_append, length_encode]
    exact Nat.le_add_right _ _
  have words : gatherWords order (encodeBytes order n i ++ rest) = encode n i ++ gatherWords order rest :=
    gatherWords_layWords_append order (encode n i) rest
  rw [decode_of_words words enough (decodeWords_encode n i _), List.drop_left' (length_encodeBytes order n i)]

/-- Settles O52: the bytes of an instruction, with none after them, decode to it and to nothing more, so that the
code at pc is fetched as it. -/
theorem stepRunsEncodedInstruction : Obligations.StepRunsEncodedInstruction := by
  intro s i running code
  have decoded := decode_encodeBytes_append s.cfg.wordByteOrder s.cfg.branchRegLen i []
  rw [List.append_nil] at decoded
  exact step_of_fetchInstr running (fetchInstr_of_holdsCode code decoded)

end Sys2Proof.Machine

namespace Sys2Proof.Machine

/-! ### The agents beside the CPU (60_exceptions.md R212) -/

/-! #### Where the CPU goes on with a value, a video step commutes if it does so afterwards -/

theorem andThen_withVideo {α : Type} {e : Except Fault α} {k k' : α → Result} (h : ∀ v, k' v = withVideo (k v)) :
    andThen e k' = withVideo (andThen e k) := by
  cases e with
  | error f => rfl
  | ok v => exact h v

theorem andThen_map_videoStep {e e' : Except Fault State} {k k' : State → Result} (he : e' = e.map State.videoStep)
    (h : ∀ t, k' t.videoStep = withVideo (k t)) : andThen e' k' = withVideo (andThen e k) := by
  subst he
  cases e with
  | error f => rfl
  | ok t => exact h t

theorem next_advance_videoStep {t t' : State} (h : t' = t.videoStep) (n : Nat) :
    .next (t'.advance n) = withVideo (.next (t.advance n)) := by
  subst h
  rfl

/-! #### The shared operations after a video step -/

theorem State.setRegOrFree_videoStep (s : State) (r : Reg) (o : Option Word) :
    s.videoStep.setRegOrFree r o = (s.setRegOrFree r o).videoStep := by
  cases o <;> rfl

theorem State.writeLow16_videoStep (s : State) (r : Reg) (v : Half) :
    s.videoStep.writeLow16 r v = (s.writeLow16 r v).videoStep := by
  simp only [State.writeLow16, State.videoStep_cfg]
  split <;> rfl

theorem State.callPush_videoStep (s : State) (v : Word) :
    s.videoStep.callPush v = (s.callPush v).map State.videoStep := by
  show (if s.callStack.length < s.cfg.callStackDepth then _ else _) = _
  unfold State.callPush
  split_ifs <;> rfl

theorem State.storeDevice_videoStep (s : State) (o : Nat) (b : Byte) :
    s.videoStep.storeDevice o b = (s.storeDevice o b).map State.videoStep := by
  unfold State.storeDevice
  split
  · rfl
  · split_ifs <;> rfl
  all_goals rfl

theorem State.store8_videoStep (s : State) (a : Word) (b : Byte) :
    s.videoStep.store8 a b = (s.store8 a b).map State.videoStep := by
  unfold State.store8
  cases region a with
  | dev => exact s.storeDevice_videoStep _ b
  | _ => rfl

theorem State.store16_videoStep (s : State) (a : Word) (v : Half) :
    s.videoStep.store16 a v = (s.store16 a v).map State.videoStep := by
  unfold State.store16
  cases storeFault a 2 <;> rfl

theorem State.store32_videoStep (s : State) (a v : Word) :
    s.videoStep.store32 a v = (s.store32 a v).map State.videoStep := by
  unfold State.store32
  cases storeFault a 4 <;> rfl

theorem State.storeSlot_videoStep (s : State) (a v : Word) :
    s.videoStep.storeSlot a v = (s.storeSlot a v).map State.videoStep := by
  simp only [State.storeSlot, State.videoStep_cfg]
  split
  · exact s.store32_videoStep a v
  · exact s.store16_videoStep a _

theorem State.loadSlot_videoStep (s : State) (r : Reg) (a : Word) :
    s.videoStep.loadSlot r a = (s.loadSlot r a).map State.videoStep := by
  have load32 : s.videoStep.load32 a = s.load32 a := rfl
  have load16 : s.videoStep.load16 a = s.load16 a := rfl
  simp only [State.loadSlot, State.videoStep_cfg, load32, load16]
  split
  · cases s.load32 a <;> rfl
  · cases s.load16 a with
    | error f => rfl
    | ok v => exact congrArg Except.ok (s.writeLow16_videoStep r v)

theorem State.jumpIf_videoStep (s : State) (sense : Bool) (c t next : Word) :
    s.videoStep.jumpIf sense c t next = withVideo (s.jumpIf sense c t next) :=
  andThen_withVideo fun taken => by cases taken <;> rfl

theorem State.callTo_videoStep (s : State) (t next : Word) :
    s.videoStep.callTo t next = withVideo (s.callTo t next) :=
  andThen_map_videoStep (s.callPush_videoStep next) fun _ => rfl

theorem State.callIf_videoStep (s : State) (sense : Bool) (c t next : Word) :
    s.videoStep.callIf sense c t next = withVideo (s.callIf sense c t next) :=
  andThen_withVideo fun taken => by
    cases taken
    · rfl
    · exact s.callTo_videoStep t next

theorem State.execRet_videoStep (s : State) : execRet s.videoStep = withVideo (execRet s) := by
  simp only [execRet, State.callPop, State.videoStep_callStack]
  split <;> rfl

/-! #### The instructions -/

/-- No instruction but VSYNC reads how far the video output is, so that a video step before it is one after it: by
the shared operation each goes through, and where it goes through none by computation. -/
theorem exec_videoStep {i : Instr} (s : State) (other : i ≠ .vsync) :
    exec i s.videoStep = withVideo (exec i s) := by
  cases i
  case vsync => exact absurd rfl other
  case jmpifR | jmpifnotR | jmpifI | jmpifnotI => exact s.jumpIf_videoStep _ _ _ _
  case callR | callI => exact s.callTo_videoStep _ _
  case callifR | callifnotR | callifI | callifnotI => exact s.callIf_videoStep _ _ _ _
  case bsl | bsr | idiv | imod => exact next_advance_videoStep (s.setRegOrFree_videoStep _ _) 1
  case cpW => exact next_advance_videoStep (s.writeLow16_videoStep _ _) 1
  case ldWImm => exact next_advance_videoStep (s.writeLow16_videoStep _ _) 2
  case ldWMem => exact andThen_withVideo fun v => next_advance_videoStep (s.writeLow16_videoStep _ v) 1
  case ldBMem | ldDMem => exact andThen_withVideo fun _ => rfl
  case stB => exact andThen_map_videoStep (s.store8_videoStep _ _) fun _ => rfl
  case stW => exact andThen_map_videoStep (s.store16_videoStep _ _) fun _ => rfl
  case push => exact andThen_map_videoStep (s.storeSlot_videoStep _ _) fun _ => rfl
  case pop => exact andThen_map_videoStep (s.loadSlot_videoStep _ _) fun _ => rfl
  case ret => exact s.execRet_videoStep
  all_goals rfl

/-- No instruction moves the video output on. -/
theorem Effect.videoTime_eq {s t : State} {i : Instr} (effect : Effect s i t) : t.videoTime = s.videoTime := by
  cases effect
  case stB stored => exact (store8_frame stored).videoTime
  case stW stored => exact (store16_frame stored).videoTime
  case push stored => exact (storeSlot_frame stored).videoTime
  all_goals simp

theorem step_videoTime {s t : State} (next : step s = .next t) : t.videoTime = s.videoTime + 1 := by
  obtain ⟨u, rfl, ⟨-, rfl⟩ | ⟨-, i, -, run⟩⟩ := step_eq_next.1 next
  · rfl
  · exact congrArg (· + 1) (exec_effect run).videoTime_eq

/-! #### The frames of the sprite unit's step and of a device's -/

theorem State.spriteStep_byteAt (s : State) {p : Place} (notFrame : ∀ k o, p ≠ .frame k o) :
    s.spriteStep.byteAt p = s.byteAt p := by
  cases p with
  | frame k o => exact absurd rfl (notFrame k o)
  | sram | device => rfl

theorem keepsAllBut_spriteStep (s : State) : KeepsAllBut [.bytes] s s.spriteStep := by
  intro p hp
  cases p
  case bytes => exact absurd (List.mem_singleton_self _) hp
  all_goals simp [Part.same]

theorem keepsAllBut_deviceStep (s : State) (port : Half) :
    KeepsAllBut [.draws, .events] s (s.deviceStep port).2 := by
  intro p hp
  cases p
  case draws | events => simp at hp
  all_goals simp [Part.same, State.deviceStep]

/-- Settles O60: a video step commutes with every instruction but VSYNC, and none moves the video output itself; the
sprite unit and the devices each reach only the parts their frames leave out. -/
theorem otherAgentsLeaveTheCpuAlone : Obligations.OtherAgentsLeaveTheCpuAlone := by
  refine fun s => ⟨fun i other => exec_videoStep s other, fun t next => step_videoTime next, step_of_halted,
    ?video, ?sprite, fun port => ?device⟩
  case video => exact ⟨rfl, keepsAllBut_videoStep s⟩
  case sprite => exact ⟨rfl, keepsAllBut_spriteStep s, fun p notFrame => s.spriteStep_byteAt notFrame⟩
  case device => exact ⟨rfl, rfl, keepsAllBut_deviceStep s port⟩

end Sys2Proof.Machine

namespace Sys2Proof.Machine

/-! ### The bytes of every instruction decode to it (30_encoding.md R62 to R73, R77) -/

/-- Settles O46: the bytes laid out are gathered to the encoder's words, whose fields give the instruction back, and
as many bytes are taken as the encoder wrote. -/
theorem decodeEncode : Obligations.DecodeEncode :=
  fun order n i rest => decode_encodeBytes_append order n i rest

end Sys2Proof.Machine

namespace Sys2Proof.Machine

/-! ### The invariant of a run (10_state.md R18; 20_memory.md R49; 44_ret_halt.md R161; 60_exceptions.md R204) -/

/-! #### What a call that goes on says of the call stack -/

theorem State.callTo_eq_next {s t : State} {v next : Word} :
    s.callTo v next = .next t ↔ s.callStack.length < s.cfg.callStackDepth ∧
      t = (s.setCallStack (s.callStack ++ [next])).setPc (branchTarget v) := by
  simp only [State.callTo, andThen_eq_next, State.callPush_eq_ok, State.jumpTo, Host.Outcome.next.injEq]
  constructor
  · rintro ⟨_, ⟨room, rfl⟩, rfl⟩
    exact ⟨room, rfl⟩
  · rintro ⟨room, rfl⟩
    exact ⟨_, ⟨room, rfl⟩, rfl⟩

theorem State.callIf_eq_next {s t : State} {sense : Bool} {c v next : Word}
    (run : s.callIf sense c v next = .next t) : t = s.setPc next ∨ s.callTo v next = .next t := by
  obtain ⟨taken, -, run⟩ := andThen_eq_next.1 run
  cases taken
  · exact .inl (Host.Outcome.next.inj run).symm
  · exact .inr run

/-- A call form that goes on has pushed nothing, or has found room (10_state.md R18). -/
theorem IsCall.room {i : Instr} {s t : State} (call : IsCall i) (run : exec i s = .next t) :
    t.callStack = s.callStack ∨ s.callStack.length < s.cfg.callStackDepth := by
  have taken {v next : Word} (run : s.callTo v next = .next t) := (State.callTo_eq_next.1 run).1
  have conditional {sense : Bool} {c v next : Word} (run : s.callIf sense c v next = .next t) :
      t.callStack = s.callStack ∨ s.callStack.length < s.cfg.callStackDepth := by
    rcases State.callIf_eq_next run with rfl | run
    · exact .inl rfl
    · exact .inr (taken run)
  obtain ⟨rA, rB, a, form⟩ := call
  simp only [List.mem_cons, List.not_mem_nil, or_false] at form
  rcases form with rfl | rfl | rfl | rfl | rfl | rfl
  case inl | inr.inr.inr.inl => exact .inr (taken run)
  all_goals exact conditional run

/-! #### Each part of the invariant, over everything an instruction can do -/

theorem Effect.canonical {s t : State} {i : Instr} (effect : Effect s i t) (h : s.Canonical) : t.Canonical := by
  cases effect
  case stB stored => exact (h.store8 stored).of_same rfl rfl rfl rfl
  case stW stored => exact (h.store16 stored).of_same rfl rfl rfl rfl
  case push stored => exact (h.storeSlot stored).of_same rfl rfl rfl rfl
  case clf => exact (h.setFb _ _ (FrameBuffer.wf_clear _ _)).of_same rfl rfl rfl rfl
  case sprite => exact ⟨h.sram, trivial, trivial, h.storedRising, h.storedHeld⟩
  all_goals exact h.of_same rfl rfl rfl rfl

theorem State.CallsOk.of_same {s t : State} (h : s.CallsOk) (cfg : t.cfg = s.cfg)
    (callStack : t.callStack = s.callStack) : t.CallsOk := by
  constructor
  · rw [cfg, callStack]
    exact h.depth
  · rw [callStack]
    exact h.entries

theorem State.CallsOk.push {s : State} (h : s.CallsOk) {v : Word} (room : s.callStack.length < s.cfg.callStackDepth)
    (address : IsReturnAddress v) : (s.setCallStack (s.callStack ++ [v])).CallsOk := by
  refine ⟨by simpa using room, fun w hw => ?_⟩
  rcases List.mem_append.1 hw with old | new
  · exact h.entries w old
  · rwa [List.mem_singleton.1 new]

theorem State.CallsOk.pop {s : State} (h : s.CallsOk) : (s.setCallStack s.callStack.dropLast).CallsOk := by
  refine ⟨?_, fun w hw => h.entries w (List.mem_of_mem_dropLast hw)⟩
  have depth := h.depth
  simp only [State.setCallStack_callStack, State.setCallStack_cfg, List.length_dropLast]
  omega

theorem exec_callsOk {i : Instr} {s t : State} (run : exec i s = .next t) (h : s.CallsOk)
    (after : IsReturnAddress (s.after i)) : t.CallsOk := by
  cases exec_effect run
  case call call =>
    rcases call.room run with same | room
    · exact absurd same (by simp)
    · exact (h.push room after).of_same rfl rfl
  case ret => exact h.pop.of_same rfl rfl
  case stB stored => exact h.of_same (store8_frame stored).cfg (store8_frame stored).callStack
  case stW stored => exact h.of_same (store16_frame stored).cfg (store16_frame stored).callStack
  case push stored => exact h.of_same (storeSlot_frame stored).cfg (storeSlot_frame stored).callStack
  all_goals exact h.of_same rfl rfl

/-- Control goes to the next instruction, to a branch target, to a return address, or stays. -/
theorem Effect.pc_le {s t : State} {i : Instr} (effect : Effect s i t) (inv : s.Inv)
    (after : IsReturnAddress (s.after i)) : t.pc.toNat ≤ 0x80000 := by
  cases effect
  case jump v => exact (branchTarget_range v).2.le
  case call v _ => exact (branchTarget_range v).2.le
  case ret v newest => exact (inv.calls.entries v (List.mem_of_getLast? newest)).2
  case halt | holdSync => exact inv.pcInRange
  all_goals exact after.2

/-- SP moves by a slot, which is even, or not at all (45_stack.md R166). -/
theorem Effect.spEven {s t : State} {i : Instr} (effect : Effect s i t) (even : isOdd s.sp = false) :
    isOdd t.sp = false := by
  cases effect
  case push => exact (isOdd_sub_even (isOdd_slot _)).trans even
  case pop => exact (isOdd_add_even (isOdd_slot _)).trans even
  case stB stored => rwa [State.setPc_sp, (store8_frame stored).sp]
  case stW stored => rwa [State.setPc_sp, (store16_frame stored).sp]
  all_goals exact even

/-- A byte store switches the VBlank service off or leaves it as it is: switching it on is U20. -/
theorem store8_serviceOff {s t : State} {a : Word} {b : Byte} (stored : s.store8 a b = .ok t)
    (off : s.vbsEnable = 0#8) : t.vbsEnable = 0#8 := by
  rcases State.store8_eq_ok.1 stored with ⟨-, rfl⟩ | ⟨-, rfl⟩ | ⟨-, device⟩
  · exact off
  · exact off
  · rcases State.storeDevice_eq_ok device with ⟨-, rfl⟩ | ⟨-, -, rfl⟩ | ⟨k, -, rfl⟩ | rfl
    · exact off
    · rfl
    · exact off
    · exact off

theorem store16_serviceOff {s t : State} {a : Word} {v : Half} (stored : s.store16 a v = .ok t)
    (off : s.vbsEnable = 0#8) : t.vbsEnable = 0#8 := by
  obtain ⟨-, rfl⟩ := State.store16_eq_ok.1 stored
  exact off

theorem storeSlot_serviceOff {s t : State} {a v : Word} (stored : s.storeSlot a v = .ok t)
    (off : s.vbsEnable = 0#8) : t.vbsEnable = 0#8 := by
  unfold State.storeSlot at stored
  split at stored
  · obtain ⟨-, rfl⟩ := State.store32_eq_ok.1 stored
    exact off
  · exact store16_serviceOff stored off

theorem Effect.serviceOff {s t : State} {i : Instr} (effect : Effect s i t) (off : s.vbsEnable = 0#8) :
    t.vbsEnable = 0#8 := by
  cases effect
  case stB stored => exact (store8_serviceOff stored off :)
  case stW stored => exact (store16_serviceOff stored off :)
  case push stored => exact (storeSlot_serviceOff stored off :)
  all_goals exact off

/-! #### The step and the cold start -/

theorem exec_inv {i : Instr} {s t : State} (run : exec i s = .next t) (inv : s.Inv)
    (after : IsReturnAddress (s.after i)) : t.Inv where
  canonical := (exec_effect run).canonical inv.canonical
  calls := exec_callsOk run inv.calls after
  pcInRange := (exec_effect run).pc_le inv after
  spEven := (exec_effect run).spEven inv.spEven
  serviceOff := (exec_effect run).serviceOff inv.serviceOff

theorem State.Inv.videoStep {s : State} (inv : s.Inv) : s.videoStep.Inv where
  canonical := inv.canonical.of_same rfl rfl rfl rfl
  calls := inv.calls.of_same rfl rfl
  pcInRange := inv.pcInRange
  spEven := inv.spEven
  serviceOff := inv.serviceOff

/-- Settles O57: a fetched instruction's next address is a possible return address, so that everything the
instruction can do keeps each part of the invariant; and no part depends on how far the video output is. -/
theorem stepKeepsInvariant : Obligations.StepKeepsInvariant := by
  intro s t inv next
  obtain ⟨u, rfl, ⟨-, rfl⟩ | ⟨-, i, fetched, run⟩⟩ := step_eq_next.1 next
  · exact inv.videoStep
  · exact (exec_inv run inv (nextPc_range fetched)).videoStep

theorem coldStart_canonical (cfg : NekoConfig) (image : List Host.Cell) : (State.coldStart cfg image).Canonical where
  sram := Memory.wf_load _ (State.resetWith_canonical_sram cfg) image
  fb0 := ⟨List.Pairwise.nil, fun _ h => absurd h List.not_mem_nil⟩
  fb1 := ⟨List.Pairwise.nil, fun _ h => absurd h List.not_mem_nil⟩
  storedRising := List.Pairwise.nil
  storedHeld _ h := absurd h List.not_mem_nil

/-- An admitted configuration has an even SP_RESET (45_stack.md R166). -/
theorem spReset_even {cfg : NekoConfig} (wf : cfg.wf = true) : isOdd cfg.spReset = false := by
  simp only [NekoConfig.wf, NekoConfig.wfSp, Bool.and_eq_true, Bool.not_eq_true'] at wf
  exact wf.1.1

/-- Settles O56: the image is loaded into canonical SRAM, no call and no store has happened, and an admitted
SP_RESET is even. -/
theorem resetHasInvariant : Obligations.ResetHasInvariant := fun cfg image wf =>
  { canonical := coldStart_canonical cfg image
    calls := ⟨Nat.zero_le _, fun _ h => absurd h List.not_mem_nil⟩
    pcInRange := Nat.zero_le _
    spEven := spReset_even wf
    serviceOff := rfl }

end Sys2Proof.Machine

namespace Sys2Proof.Machine

/-! ### The decoder over all words: the rows of the opcode table and the reserved encodings (30_encoding.md R74, R76) -/

/-! #### The canonical word of a one-word instruction -/

/-- Where the encoder writes one word, that word decodes to the instruction (30_encoding.md R77). -/
theorem encodedAs_of_encode {i : Instr} {w : Half} (encoded : ∀ n, encode n i = [w]) : EncodedAs i w := by
  have decoded := decodeWords_encode .one i []
  rw [encoded] at decoded
  exact ⟨encoded, decoded⟩

/-! #### The group of a word -/

theorem decodeWords_eq_decodeLogic {w : Half} (base : field w 0 4 = 0#4) (w1 w2 : Half) :
    decodeWords w w1 w2 = decodeLogic w := by
  simp [decodeWords, base]

theorem decodeWords_eq_decodeBranch {w : Half} (base : field w 0 4 = 1#4) (w1 w2 : Half) :
    decodeWords w w1 w2 = decodeBranch w w1 w2 := by
  simp [decodeWords, base]

theorem decodeWords_eq_decodeStack {w : Half} (base : field w 0 4 = 5#4) (w1 w2 : Half) :
    decodeWords w w1 w2 = decodeStack w := by
  simp [decodeWords, base]

theorem decodeWords_eq_decodeTest {w : Half} (base : field w 0 4 = 6#4) (w1 w2 : Half) :
    decodeWords w w1 w2 = decodeTest w := by
  simp [decodeWords, base]

theorem decodeWords_eq_decodeCmp {w : Half} (base : field w 0 4 = 7#4) (w1 w2 : Half) :
    decodeWords w w1 w2 = decodeCmp w := by
  simp [decodeWords, base]

/-! #### The rows -/

/-- Settles O49: a row's mask keeps the base field, which selects the group, and the group's own selecting fields,
which select the row; every other field is read from the word as it is. -/
theorem opcodeRowsSelect : Obligations.OpcodeRowsSelect := by
  intro w w1 w2
  and_intros <;> intro row
  iterate 7 -- LOGICOP
    · rw [decodeWords_eq_decodeLogic (field_eq_of_and_eq row rfl), decodeLogic,
        field_eq_of_and_eq (lo := 4) (n := 3) row rfl]
      rfl
  iterate 12 -- BRANCH
    · rw [decodeWords_eq_decodeBranch (field_eq_of_and_eq row rfl), decodeBranch,
        field_eq_of_and_eq (lo := 4) (n := 2) row rfl, field_eq_of_and_eq (lo := 14) (n := 2) row rfl]
      rfl
  iterate 8 -- MATHOP
    · rw [decodeWords_eq_decodeMath (field_eq_of_and_eq row rfl), decodeMath,
        field_eq_of_and_eq (lo := 4) (n := 4) row rfl]
      rfl
  iterate 9 -- MOV
    · rw [decodeWords_eq_decodeMov (field_eq_of_and_eq row rfl), decodeMov,
        field_eq_of_and_eq (lo := 4) (n := 4) row rfl]
      rfl
  iterate 2 -- RET
    · rw [decodeWords_eq_decodeRet (field_eq_of_and_eq row rfl), decodeRet,
        field_eq_of_and_eq (lo := 4) (n := 1) row rfl]
      rfl
  iterate 2 -- STACK
    · rw [decodeWords_eq_decodeStack (field_eq_of_and_eq row rfl), decodeStack,
        field_eq_of_and_eq (lo := 4) (n := 1) row rfl]
      rfl
  · exact decodeWords_eq_decodeTest (field_eq_of_and_eq row rfl) w1 w2
  · exact decodeWords_eq_decodeCmp (field_eq_of_and_eq row rfl) w1 w2
  iterate 7 -- IO
    · rw [decodeWords_eq_decodeIo (field_eq_of_and_eq row rfl), decodeIo,
        field_eq_of_and_eq (lo := 4) (n := 3) row rfl]
      rfl

/-- Settles O50: the decoder run on each word. -/
theorem sampleWordsDecode : Obligations.SampleWordsDecode :=
  ⟨rfl, rfl, rfl, rfl, rfl, rfl, rfl, rfl, rfl, rfl, rfl⟩

/-! #### The reserved encodings -/

theorem field_toNat (w : Half) (lo n : Nat) : (field w lo n).toNat = w.toNat / 2 ^ lo % 2 ^ n := by
  rw [field, BitVec.extractLsb'_toNat, Nat.shiftRight_eq_div_pow]

theorem decodeLogic_eq_error {w : Half} {e : DecodeError} :
    decodeLogic w = .error e ↔ e = .reservedLogic ∧ (field w 4 3).toNat = 7 := by
  have bound := (field w 4 3).isLt
  unfold decodeLogic
  generalize (field w 4 3).toNat = sub at bound ⊢
  dsimp only
  split
  case h_8 =>
    have last : sub = 7 := by grind
    simp [last, eq_comm]
  all_goals simp

theorem decodeBranch_eq_error {w w1 w2 : Half} {e : DecodeError} :
    decodeBranch w w1 w2 = .error e ↔ e = .reservedBranch ∧ (field w 4 2).toNat = 2 := by
  unfold decodeBranch
  generalize (field w 4 2).toNat = cond
  generalize (field w 14 2).toNat = form
  dsimp only
  split
  case h_3 => simp [eq_comm]
  case h_4 notReserved =>
    have notReserved : cond ≠ 2 := notReserved
    split
    all_goals simp [notReserved]
  all_goals
    split
    all_goals simp

theorem decodeMath_eq_error {w : Half} {e : DecodeError} :
    decodeMath w = .error e ↔ e = .reservedMath ∧ 8 ≤ (field w 4 4).toNat := by
  unfold decodeMath
  generalize (field w 4 4).toNat = sub
  dsimp only
  split
  case h_9 =>
    have reserved : 8 ≤ sub := by grind
    simp [reserved, eq_comm]
  all_goals simp

theorem decodeMov_eq_error {w w1 w2 : Half} {e : DecodeError} :
    decodeMov w w1 w2 = .error e ↔ e = .reservedMov ∧ 9 ≤ (field w 4 4).toNat := by
  unfold decodeMov
  generalize (field w 4 4).toNat = sub
  dsimp only
  split
  case h_10 =>
    have reserved : 9 ≤ sub := by grind
    simp [reserved, eq_comm]
  all_goals simp

theorem decodeRet_ne_error (w : Half) (e : DecodeError) : decodeRet w ≠ .error e := by
  unfold decodeRet
  split <;> simp

theorem decodeStack_ne_error (w : Half) (e : DecodeError) : decodeStack w ≠ .error e := by
  unfold decodeStack
  dsimp only
  split <;> simp

theorem decodeIo_eq_error {w w1 : Half} {e : DecodeError} :
    decodeIo w w1 = .error e ↔ e = .reservedIo ∧ (field w 4 3).toNat = 7 := by
  have bound := (field w 4 3).isLt
  unfold decodeIo
  generalize (field w 4 3).toNat = sub at bound ⊢
  dsimp only
  split
  case h_8 =>
    have last : sub = 7 := by grind
    simp [last, eq_comm]
  all_goals simp

/-- The reserved encoding that a word is, if it is one: its group and its sub-instruction or condition. -/
inductive Reserved (w : Half) : DecodeError → Prop where
  | logic : w.toNat % 16 = 0 → w.toNat / 16 % 8 = 7 → Reserved w .reservedLogic
  | branch : w.toNat % 16 = 1 → w.toNat / 16 % 4 = 2 → Reserved w .reservedBranch
  | math : w.toNat % 16 = 2 → 8 ≤ w.toNat / 16 % 16 → Reserved w .reservedMath
  | mov : w.toNat % 16 = 3 → 9 ≤ w.toNat / 16 % 16 → Reserved w .reservedMov
  | io : w.toNat % 16 = 8 → w.toNat / 16 % 8 = 7 → Reserved w .reservedIo
  | base : 9 ≤ w.toNat % 16 → Reserved w .unusedBase

/-- The decoder refuses the reserved encodings, each by its name, and no other word. -/
theorem decodeWords_eq_error {w w1 w2 : Half} {e : DecodeError} :
    decodeWords w w1 w2 = .error e ↔ Reserved w e := by
  have sub (lo n : Nat) := field_toNat w lo n
  constructor
  · intro refused
    unfold decodeWords at refused
    have base := sub 0 4
    split at refused
    case h_1 group =>
      obtain ⟨rfl, value⟩ := decodeLogic_eq_error.1 refused
      exact .logic (by omega) (by rwa [sub] at value)
    case h_2 group =>
      obtain ⟨rfl, value⟩ := decodeBranch_eq_error.1 refused
      exact .branch (by omega) (by rwa [sub] at value)
    case h_3 group =>
      obtain ⟨rfl, value⟩ := decodeMath_eq_error.1 refused
      exact .math (by omega) (by rwa [sub] at value)
    case h_4 group =>
      obtain ⟨rfl, value⟩ := decodeMov_eq_error.1 refused
      exact .mov (by omega) (by rwa [sub] at value)
    case h_5 => exact absurd refused (decodeRet_ne_error w e)
    case h_6 => exact absurd refused (decodeStack_ne_error w e)
    case h_7 | h_8 => cases refused
    case h_9 group =>
      obtain ⟨rfl, value⟩ := decodeIo_eq_error.1 refused
      exact .io (by omega) (by rwa [sub] at value)
    case h_10 =>
      cases refused
      exact .base (by grind)
  · intro reserved
    have group {k : Nat} (base : w.toNat % 16 = k) (bound : k < 16) : field w 0 4 = BitVec.ofNat 4 k :=
      BitVec.eq_of_toNat_eq (by rw [sub, BitVec.toNat_ofNat]; omega)
    cases reserved with
    | logic base value =>
      rw [decodeWords_eq_decodeLogic (group base (by decide)), decodeLogic_eq_error, sub]
      exact ⟨rfl, value⟩
    | branch base value =>
      rw [decodeWords_eq_decodeBranch (group base (by decide)), decodeBranch_eq_error, sub]
      exact ⟨rfl, value⟩
    | math base value =>
      rw [decodeWords_eq_decodeMath (group base (by decide)), decodeMath_eq_error, sub]
      exact ⟨rfl, value⟩
    | mov base value =>
      rw [decodeWords_eq_decodeMov (group base (by decide)), decodeMov_eq_error, sub]
      exact ⟨rfl, value⟩
    | io base value =>
      rw [decodeWords_eq_decodeIo (group base (by decide)), decodeIo_eq_error, sub]
      exact ⟨rfl, value⟩
    | base base =>
      unfold decodeWords
      have unused : 9 ≤ (field w 0 4).toNat := by rw [sub]; omega
      split
      case h_10 => rfl
      all_goals omega

/-- Settles O47: each group's decoder refuses just its own reserved values, and the dispatch on the base field just
the bases without a group. -/
theorem reservedWordsRefused : Obligations.ReservedWordsRefused := by
  intro w w1 w2
  simp only [Ne, decodeWords_eq_error]
  refine ⟨⟨fun h => ?_, fun ⟨base, sub⟩ => .logic base sub⟩, ⟨fun h => ?_, fun ⟨base, cond⟩ => .branch base cond⟩,
    ⟨fun h => ?_, fun ⟨base, sub⟩ => .math base sub⟩, ⟨fun h => ?_, fun ⟨base, sub⟩ => .mov base sub⟩,
    ⟨fun h => ?_, fun ⟨base, sub⟩ => .io base sub⟩, ⟨fun h => ?_, .base⟩, nofun⟩
  case refine_6 =>
    cases h with
    | base base => exact base
  all_goals
    cases h
    exact ⟨‹_›, ‹_›⟩

/-- The first word alone tells that it is reserved (30_encoding.md R72), so that the fetch stops there. -/
theorem step_of_reserved {s : State} {w : Half} {e : DecodeError} (running : s.halted = false)
    (first : s.fetch16 s.pc = .ok w) (reserved : Reserved w e) : step s = .fault (decodeFault e) := by
  refine step_eq_fault.2 ⟨running, .inl ?_⟩
  have refused : decodeFetched w 0#16 0#16 = .error (decodeFault e) := by
    rw [decodeFetched, decodeWords_eq_error.2 reserved]
  simp only [State.fetchInstr, first, bind, Except.bind, refused]

/-- Settles O48: the decoder's refusal of the first word is the fetch's fault and the step's. -/
theorem reservedWordsStopTheStep : Obligations.ReservedWordsStopTheStep := by
  intro s w running first
  have stops {e : DecodeError} (reserved : Reserved w e) : step s = .fault (decodeFault e) :=
    step_of_reserved running first reserved
  exact ⟨fun ⟨base, sub⟩ => stops (.logic base sub), fun ⟨base, cond⟩ => stops (.branch base cond),
    fun ⟨base, sub⟩ => stops (.math base sub), fun ⟨base, sub⟩ => stops (.mov base sub),
    fun ⟨base, sub⟩ => stops (.io base sub), fun base => stops (.base base)⟩

end Sys2Proof.Machine

namespace Sys2Proof.Machine

/-! ### Frames of the state's updates -/

/-! #### How frames are put together -/

theorem KeepsAllBut.mono {ps qs : List Part} {s t : State} (h : KeepsAllBut ps s t) (sub : ps ⊆ qs) :
    KeepsAllBut qs s t := fun p hp => h p fun hq => hp (sub hq)

theorem KeepsAllBut.append {ps qs : List Part} {s t u : State} (h : KeepsAllBut ps s t) (h' : KeepsAllBut qs t u) :
    KeepsAllBut (ps ++ qs) s u :=
  (h.mono (List.subset_append_left ps qs)).trans (h'.mono (List.subset_append_right ps qs))

/-- A frame never names pc. -/
theorem KeepsAllBut.setPc {ps : List Part} {s t : State} (h : KeepsAllBut ps s t) (v : Word) :
    KeepsAllBut ps s (t.setPc v) :=
  h.trans ((keepsAllBut_setPc t v).mono (List.nil_subset ps))

theorem KeepsAllBut.reg {ps : List Part} {s t : State} (h : KeepsAllBut ps s t) (noRegs : Part.regs ∉ ps) (r : Reg) :
    t.reg r = s.reg r := h .regs noRegs r

/-- A register write and the move to the next instruction, after an update that leaves the registers alone. -/
theorem KeepsAllBut.writesReg {ps : List Part} {s t : State} (h : KeepsAllBut ps s t) (noRegs : Part.regs ∉ ps)
    (r : Reg) (v : Word) (n : Nat) : WritesReg s ((t.setReg r v).setPc (s.nextPc n)) r v n ps where
  value := t.reg_setReg_same r v
  pc := rfl
  others j hj := (t.reg_setReg_of_ne r j v hj).trans (h.reg noRegs j)
  frame := ((h.append (keepsAllBut_setReg t r v)).mono (by simp)).setPc _

/-! #### What each update leaves unchanged -/

section

variable (s : State)

theorem keepsAllBut_setSp (v : Word) : KeepsAllBut [.sp] s (s.setSp v) := by
  intro p hp
  cases p
  case sp => exact absurd (List.mem_singleton_self _) hp
  all_goals simp [Part.same]

theorem keepsAllBut_setFlags (f : FlagBits) : KeepsAllBut [.flags] s (s.setFlags f) := by
  intro p hp
  cases p
  case flags => exact absurd (List.mem_singleton_self _) hp
  all_goals simp [Part.same]

theorem keepsAllBut_setCallStack (cs : List Word) : KeepsAllBut [.callStack] s (s.setCallStack cs) := by
  intro p hp
  cases p
  case callStack => exact absurd (List.mem_singleton_self _) hp
  all_goals simp [Part.same]

theorem keepsAllBut_draw : KeepsAllBut [.draws] s s.draw := by
  intro p hp
  cases p
  case draws => exact absurd (List.mem_singleton_self _) hp
  all_goals simp [Part.same]

theorem keepsAllBut_emit (e : Event) : KeepsAllBut [.events] s (s.emit e) := by
  intro p hp
  cases p
  case events => exact absurd (List.mem_singleton_self _) hp
  all_goals simp [Part.same]

theorem keepsAllBut_selectFrame (v : Word) : KeepsAllBut [.displayFB] s (s.selectFrame v) := by
  intro p hp
  cases p
  case displayFB => exact absurd (List.mem_singleton_self _) hp
  all_goals simp [Part.same]

theorem keepsAllBut_setFb (k : BitVec 1) (f : FrameBuffer) : KeepsAllBut [.bytes] s (s.setFb k f) := by
  intro p hp
  cases p
  case bytes => exact absurd (List.mem_singleton_self _) hp
  all_goals simp [Part.same]

theorem keepsAllBut_kickSprites (table count : Word) :
    KeepsAllBut [.sprites, .bytes] s (s.kickSprites table count) := by
  intro p hp
  cases p
  case sprites | bytes => simp at hp
  all_goals simp [Part.same]

theorem keepsAllBut_holdSync : KeepsAllBut [.vsync] s s.holdSync := by
  intro p hp
  cases p
  case vsync => exact absurd (List.mem_singleton_self _) hp
  all_goals simp [Part.same]

theorem keepsAllBut_liftSync : KeepsAllBut [.vsync] s s.liftSync := by
  intro p hp
  cases p
  case vsync => exact absurd (List.mem_singleton_self _) hp
  all_goals simp [Part.same]

theorem keepsAllBut_pokeByte (a : Word) (b : Byte) : KeepsAllBut [.bytes, .stored] s (s.pokeByte a b) := by
  intro p hp
  cases p
  case bytes | stored => simp at hp
  all_goals simp [Part.same]

theorem keepsAllBut_pokeHalf (a : Word) (v : Half) : KeepsAllBut [.bytes, .stored] s (s.pokeHalf a v) :=
  (keepsAllBut_pokeByte s _ _).trans (keepsAllBut_pokeByte _ _ _)

theorem keepsAllBut_pokeWord (a v : Word) : KeepsAllBut [.bytes, .stored] s (s.pokeWord a v) :=
  (keepsAllBut_pokeHalf s _ _).trans (keepsAllBut_pokeHalf _ _ _)

end

theorem storeDevice_keepsAllBut {s t : State} {o : Nat} {b : Byte} (stored : s.storeDevice o b = .ok t) :
    KeepsAllBut [.bytes] s t := by
  intro p hp
  rcases State.storeDevice_eq_ok stored with ⟨-, rfl⟩ | ⟨-, -, rfl⟩ | ⟨k, -, rfl⟩ | rfl
  case inr.inr.inr => exact Part.same.refl p _
  all_goals
    cases p
    case bytes => exact absurd (List.mem_singleton_self _) hp
    all_goals simp [Part.same]

end Sys2Proof.Machine

namespace Sys2Proof.Machine

/-! ### What no instruction does -/

/-! #### SP (45_stack.md) -/

theorem push_eq_next {s t : State} {rA : Reg} : exec (.push rA) s = .next t ↔
    ∃ u, s.storeSlot s.sp (s.reg rA) = .ok u ∧ t = (u.setSp (s.sp - s.slotSize)).setPc (s.nextPc 1) := by
  show andThen _ _ = _ ↔ _
  rw [andThen_eq_next]
  refine exists_congr fun u => and_congr_right fun stored => ?_
  rw [State.advance_eq, State.setSp_nextPc, (storeSlot_frame stored).nextPc, Host.Outcome.next.injEq, eq_comm]

theorem pop_eq_next {s t : State} {rA : Reg} (run : exec (.pop rA) s = .next t) :
    ∃ v, t = ((s.setReg rA v).setSp (s.sp + s.slotSize)).setPc (s.nextPc 1) := by
  obtain ⟨u, loaded, run⟩ := andThen_eq_next.1 run
  obtain ⟨v, rfl⟩ := loadSlot_eq_ok loaded
  exact ⟨v, (Host.Outcome.next.inj run).symm⟩

theorem Effect.sp_eq {s t : State} {i : Instr} (effect : Effect s i t) (other : ∀ rA, i ≠ .push rA ∧ i ≠ .pop rA) :
    t.sp = s.sp := by
  cases effect
  case push rA _ _ => exact absurd rfl (other rA).1
  case pop rA _ => exact absurd rfl (other rA).2
  case stB stored => exact (store8_frame stored).sp
  case stW stored => exact (store16_frame stored).sp
  all_goals rfl

/-- Settles O35: PUSH and POP each set SP by one slot, and no other effect of an instruction writes it. -/
theorem spChangedOnlyByStackGroup : Obligations.SpChangedOnlyByStackGroup := by
  refine fun i s t run => ⟨(exec_effect run).sp_eq, ?push, ?pop⟩
  case push =>
    rintro ⟨rA, rfl⟩
    obtain ⟨u, -, rfl⟩ := push_eq_next.1 run
    exact BitVec.sub_add_cancel _ _
  case pop =>
    rintro ⟨rA, rfl⟩
    obtain ⟨v, rfl⟩ := pop_eq_next run
    rfl

/-! #### The call stack (10_state.md R18) -/

theorem Effect.callStack_eq {s t : State} {i : Instr} (effect : Effect s i t) :
    t.callStack = s.callStack ∨ (i = .ret ∧ ∃ v, s.callStack = t.callStack ++ [v]) ∨
      (IsCall i ∧ t.callStack = s.callStack ++ [s.after i] ∧
        ∃ v, t = (s.setCallStack (s.callStack ++ [s.after i])).setPc (branchTarget v)) := by
  cases effect
  case call v call => exact .inr (.inr ⟨call, rfl, v, rfl⟩)
  case ret v newest => exact .inr (.inl ⟨rfl, v, (List.dropLast_append_getLast? v newest).symm⟩)
  case stB stored => exact .inl (store8_frame stored).callStack
  case stW stored => exact .inl (store16_frame stored).callStack
  case push stored => exact .inl (storeSlot_frame stored).callStack
  all_goals exact .inl rfl

/-- Settles O36: of everything an instruction can do, only a call pushes and only RET pops. -/
theorem callStackChangedOnlyByCallsAndRet : Obligations.CallStackChangedOnlyByCallsAndRet := by
  intro i s t run
  rcases (exec_effect run).callStack_eq with same | popped | ⟨call, pushed, -⟩
  · exact .inl same
  · exact .inr (.inl popped)
  · exact .inr (.inr ⟨call, pushed⟩)

/-- RET where the newest entry is known (44_ret_halt.md R161). -/
theorem exec_ret {s : State} {cs : List Word} {v : Word} (calls : s.callStack = cs ++ [v]) :
    exec .ret s = .next ((s.setCallStack cs).setPc v) := by
  have popped : s.callPop = .ok (v, s.setCallStack cs) := State.callPop_eq_ok.2 (by simp [calls])
  show andThen s.callPop _ = _
  rw [popped]
  rfl

/-- Settles O16: only a taken call grows the call stack; RET pops the address that it pushed, so that but for pc the
state is the one before it. -/
theorem callThenRetReturns : Obligations.CallThenRetReturns := by
  intro i s t run grows
  rcases (exec_effect run).callStack_eq with same | ⟨-, v, popped⟩ | ⟨-, -, v, rfl⟩
  · exact absurd grows (by simp [same])
  · exact absurd grows (by simp [popped])
  · exact ⟨s.setPc (s.after i), exec_ret rfl, rfl, keepsAllBut_setPc s _⟩

/-! #### SRAM and the record of stored bytes (20_memory.md) -/

theorem Effect.sram_eq {s t : State} {i : Instr} (effect : Effect s i t)
    (other : ∀ rA rB, i ≠ .stW rA rB ∧ i ≠ .stB rA rB ∧ i ≠ .push rA) : t.sram = s.sram ∧ t.stored = s.stored := by
  cases effect
  case stW rA rB _ _ => exact absurd rfl (other rA rB).1
  case stB rA rB _ _ => exact absurd rfl (other rA rB).2.1
  case push rA _ _ => exact absurd rfl (other rA rA).2.2
  all_goals exact ⟨rfl, rfl⟩

/-- Settles O37: no effect of an instruction but those of the three stores writes SRAM or the record. -/
theorem sramChangedOnlyByStores : Obligations.SramChangedOnlyByStores := by
  intro i s t run other
  obtain ⟨sram, stored⟩ := (exec_effect run).sram_eq other
  exact ⟨fun a => congrArg (Memory.read · a) sram, stored⟩

/-! #### The displayed frame buffer (47_io.md R185) -/

/-- A store and CLF reach the write-target buffer, which is not the one displayed. -/
theorem Effect.shown_eq {s t : State} {i : Instr} (effect : Effect s i t) (other : ∀ rA rB, i ≠ .sprite rA rB) :
    t.fb s.displayFB = s.fb s.displayFB := by
  cases effect
  case sprite rA rB => exact absurd rfl (other rA rB)
  case stB stored => exact (store8_frame stored).shown
  case stW stored => exact (store16_frame stored).shown
  case push stored => exact (storeSlot_frame stored).shown
  case clf => exact State.fb_setFb_of_ne _ _ _ _ s.writeTarget_ne.symm
  all_goals rfl

theorem exec_fsel (rA : Reg) (s : State) : exec (.fsel rA) s =
    .next (((s.selectFrame (s.reg rA)).emit (.frameSelect ((s.reg rA).extractLsb' 0 1))).setPc (s.nextPc 1)) := rfl

/-- Settles O38: no effect but SPRITE's reaches the displayed buffer, and FSEL's reaches no byte at all. -/
theorem displayedBufferIsOutOfReach : Obligations.DisplayedBufferIsOutOfReach := by
  refine fun i s t run other => ⟨fun o => ?shown, ?fsel⟩
  case shown => exact congrArg (FrameBuffer.read · o) ((exec_effect run).shown_eq other)
  case fsel =>
    rintro rA rfl p
    obtain rfl := Host.Outcome.next.inj ((exec_fsel rA s).symm.trans run)
    simp

/-! #### The configuration, the free values and the event history -/

theorem Effect.cfg_eq {s t : State} {i : Instr} (effect : Effect s i t) : t.cfg = s.cfg := by
  cases effect
  case stB stored => exact (store8_frame stored).cfg
  case stW stored => exact (store16_frame stored).cfg
  case push stored => exact (storeSlot_frame stored).cfg
  all_goals rfl

theorem Effect.draws_eq {s t : State} {i : Instr} (effect : Effect s i t) :
    t.draws = s.draws ∨ t.draws = s.draws + 1 := by
  cases effect
  case writeFree | input => exact .inr rfl
  case stB stored => exact .inl (store8_frame stored).draws
  case stW stored => exact .inl (store16_frame stored).draws
  case push stored => exact .inl (storeSlot_frame stored).draws
  all_goals exact .inl rfl

theorem Effect.events_eq {s t : State} {i : Instr} (effect : Effect s i t) :
    t.events = s.events ∨ ∃ e, t.events = s.events ++ [e] := by
  cases effect
  case input | output | fsel | sprite => exact .inr ⟨_, rfl⟩
  case stB stored => exact .inl (store8_frame stored).events
  case stW stored => exact .inl (store16_frame stored).events
  case push stored => exact .inl (storeSlot_frame stored).events
  all_goals exact .inl rfl

/-- Settles O39: over everything an instruction can do. -/
theorem historyGrowsAndConfigurationStays : Obligations.HistoryGrowsAndConfigurationStays :=
  fun _ _ _ run => ⟨(exec_effect run).cfg_eq, (exec_effect run).draws_eq, (exec_effect run).events_eq⟩

/-! #### FLAGS (10_state.md R15) -/

/-- A result with the FLAGS of the next state replaced. -/
def withFlags (f : FlagBits) : Result → Result
  | .next t => .next (t.setFlags f)
  | .fault g => .fault g
  | .refused r => .refused r

section

variable (s : State) (f : FlagBits)

theorem andThen_withFlags {α : Type} {e : Except Fault α} {k k' : α → Result} (h : ∀ v, k' v = withFlags f (k v)) :
    andThen e k' = withFlags f (andThen e k) := by
  cases e with
  | error g => rfl
  | ok v => exact h v

theorem andThen_map_setFlags {e e' : Except Fault State} {k k' : State → Result}
    (he : e' = e.map (State.setFlags · f)) (h : ∀ t, k' (t.setFlags f) = withFlags f (k t)) :
    andThen e' k' = withFlags f (andThen e k) := by
  subst he
  cases e with
  | error g => rfl
  | ok t => exact h t

theorem next_advance_setFlags {t t' : State} (h : t' = t.setFlags f) (n : Nat) :
    .next (t'.advance n) = withFlags f (.next (t.advance n)) := by
  subst h
  rfl

theorem State.setRegOrFree_setFlags (r : Reg) (o : Option Word) :
    (s.setFlags f).setRegOrFree r o = (s.setRegOrFree r o).setFlags f := by
  cases o <;> rfl

theorem State.writeLow16_setFlags (r : Reg) (v : Half) :
    (s.setFlags f).writeLow16 r v = (s.writeLow16 r v).setFlags f := by
  simp only [State.writeLow16, State.setFlags_cfg]
  split <;> rfl

theorem State.callPush_setFlags (v : Word) : (s.setFlags f).callPush v = (s.callPush v).map (State.setFlags · f) := by
  show (if s.callStack.length < s.cfg.callStackDepth then _ else _) = _
  unfold State.callPush
  split_ifs <;> rfl

theorem State.storeDevice_setFlags (o : Nat) (b : Byte) :
    (s.setFlags f).storeDevice o b = (s.storeDevice o b).map (State.setFlags · f) := by
  unfold State.storeDevice
  split
  case h_2 => split_ifs <;> rfl
  all_goals rfl

theorem State.store8_setFlags (a : Word) (b : Byte) :
    (s.setFlags f).store8 a b = (s.store8 a b).map (State.setFlags · f) := by
  unfold State.store8
  cases region a with
  | dev => exact s.storeDevice_setFlags f _ b
  | _ => rfl

theorem State.store16_setFlags (a : Word) (v : Half) :
    (s.setFlags f).store16 a v = (s.store16 a v).map (State.setFlags · f) := by
  unfold State.store16
  cases storeFault a 2 <;> rfl

theorem State.store32_setFlags (a v : Word) :
    (s.setFlags f).store32 a v = (s.store32 a v).map (State.setFlags · f) := by
  unfold State.store32
  cases storeFault a 4 <;> rfl

theorem State.storeSlot_setFlags (a v : Word) :
    (s.setFlags f).storeSlot a v = (s.storeSlot a v).map (State.setFlags · f) := by
  simp only [State.storeSlot, State.setFlags_cfg]
  split
  · exact s.store32_setFlags f a v
  · exact s.store16_setFlags f a _

theorem State.loadSlot_setFlags (r : Reg) (a : Word) :
    (s.setFlags f).loadSlot r a = (s.loadSlot r a).map (State.setFlags · f) := by
  have load32 : (s.setFlags f).load32 a = s.load32 a := rfl
  have load16 : (s.setFlags f).load16 a = s.load16 a := rfl
  simp only [State.loadSlot, State.setFlags_cfg, load32, load16]
  split
  · cases s.load32 a <;> rfl
  · cases s.load16 a with
    | error g => rfl
    | ok v => exact congrArg Except.ok (s.writeLow16_setFlags f r v)

theorem State.jumpIf_setFlags (sense : Bool) (c t next : Word) :
    (s.setFlags f).jumpIf sense c t next = withFlags f (s.jumpIf sense c t next) :=
  andThen_withFlags f fun taken => by cases taken <;> rfl

theorem State.callTo_setFlags (t next : Word) : (s.setFlags f).callTo t next = withFlags f (s.callTo t next) :=
  andThen_map_setFlags f (s.callPush_setFlags f next) fun _ => rfl

theorem State.callIf_setFlags (sense : Bool) (c t next : Word) :
    (s.setFlags f).callIf sense c t next = withFlags f (s.callIf sense c t next) :=
  andThen_withFlags f fun taken => by
    cases taken
    · rfl
    · exact s.callTo_setFlags f t next

theorem State.execRet_setFlags : execRet (s.setFlags f) = withFlags f (execRet s) := by
  simp only [execRet, State.callPop, State.setFlags_callStack]
  split <;> rfl

theorem State.execVsync_setFlags : execVsync (s.setFlags f) = withFlags f (execVsync s) := by
  have sync : (s.setFlags f).verticalSync = s.verticalSync := rfl
  simp only [execVsync, sync]
  split_ifs <;> rfl

end

/-- An instruction that neither reads nor writes FLAGS does the same whatever it holds: by the shared operation each
goes through, and where it goes through none by computation. -/
theorem exec_setFlags {i : Instr} (s : State) (f : FlagBits) (noTest : ∀ rA mask, i ≠ .test rA mask)
    (noCmp : ∀ rA rB, i ≠ .cmp rA rB) : exec i (s.setFlags f) = withFlags f (exec i s) := by
  cases i
  case test rA mask => exact absurd rfl (noTest rA mask)
  case cmp rA rB => exact absurd rfl (noCmp rA rB)
  case jmpifR | jmpifnotR | jmpifI | jmpifnotI => exact s.jumpIf_setFlags f _ _ _ _
  case callR | callI => exact s.callTo_setFlags f _ _
  case callifR | callifnotR | callifI | callifnotI => exact s.callIf_setFlags f _ _ _ _
  case bsl | bsr | idiv | imod => exact next_advance_setFlags f (s.setRegOrFree_setFlags f _ _) 1
  case cpW => exact next_advance_setFlags f (s.writeLow16_setFlags f _ _) 1
  case ldWImm => exact next_advance_setFlags f (s.writeLow16_setFlags f _ _) 2
  case ldWMem => exact andThen_withFlags f fun v => next_advance_setFlags f (s.writeLow16_setFlags f _ v) 1
  case ldBMem | ldDMem => exact andThen_withFlags f fun _ => rfl
  case stB => exact andThen_map_setFlags f (s.store8_setFlags f _ _) fun _ => rfl
  case stW => exact andThen_map_setFlags f (s.store16_setFlags f _ _) fun _ => rfl
  case push => exact andThen_map_setFlags f (s.storeSlot_setFlags f _ _) fun _ => rfl
  case pop => exact andThen_map_setFlags f (s.loadSlot_setFlags f _ _) fun _ => rfl
  case ret => exact s.execRet_setFlags f
  case vsync => exact s.execVsync_setFlags f
  all_goals rfl

theorem Effect.flags_eq {s t : State} {i : Instr} (effect : Effect s i t) (noCmp : ∀ rA rB, i ≠ .cmp rA rB) :
    t.flags = s.flags := by
  cases effect
  case cmp rA rB _ => exact absurd rfl (noCmp rA rB)
  case stB stored => exact (store8_frame stored).flags
  case stW stored => exact (store16_frame stored).flags
  case push stored => exact (storeSlot_frame stored).flags
  all_goals rfl

/-- Settles O34: CMP overwrites all six bits unread; every other instruction but TEST commutes with a change of FLAGS
and has no effect on it. -/
theorem flagsOnlyCmpAndTest : Obligations.FlagsOnlyCmpAndTest := by
  refine fun i s f noTest => ⟨?cmp, fun noCmp => ⟨fun t run => (exec_effect run).flags_eq noCmp, ?other⟩⟩
  case cmp =>
    rintro ⟨rA, rB, rfl⟩
    rfl
  case other =>
    rw [exec_setFlags s f noTest noCmp]
    cases exec i s <;> rfl

end Sys2Proof.Machine

namespace Sys2Proof.Machine

/-! ### The rest of LOGICOP and MATHOP (40_logic.md R101, R105 to R107; 42_math.md R134 to R136) -/

/-! #### OR and BSWAP -/

theorem or_encodedAs (rA rB : Reg) : EncodedAs (.or rA rB) (fieldAt rB 11 ||| fieldAt rA 7 ||| 0x0000#16) :=
  encodedAs_of_encode fun _ => congrArg (fun w => [w]) (packShort_eq_or rB rA 0 0)

theorem bswap_encodedAs (rA rB : Reg) : EncodedAs (.bswap rA rB) (fieldAt rB 11 ||| fieldAt rA 7 ||| 0x0060#16) :=
  encodedAs_of_encode fun _ => congrArg (fun w => [w]) (packShort_eq_or rB rA 6 0)

theorem byteSwap_eq (v : Word) : byteSwap v = BitVec.ofNat 32 (v.toNat % 256 * 256 + v.toNat / 256 % 256) := by
  refine BitVec.eq_of_toNat_eq ?_
  simp only [byteSwap, BitVec.toNat_setWidth, toNat_append_eq_add, BitVec.extractLsb'_toNat,
    Nat.shiftRight_eq_div_pow, BitVec.toNat_ofNat, Nat.reducePow, Nat.div_one]

theorem exec_bswap (rA rB : Reg) (s : State) :
    exec (.bswap rA rB) s = .next ((s.setReg rA (byteSwap (s.reg rB))).setPc (s.nextPc 1)) := rfl

/-- Settles O2: each word is the packed one, and each meaning is one register write. -/
theorem orBswapResults : Obligations.OrBswapResults := by
  refine fun s rA rB => ⟨⟨or_encodedAs rA rB, ?or⟩, ⟨bswap_encodedAs rA rB, ?bswap⟩⟩
  case or => exact resultIn_of_exec (exec_or rA rB s)
  case bswap => exact byteSwap_eq (s.reg rB) ▸ resultIn_of_exec (exec_bswap rA rB s)

/-! #### A result that has a value, and one that the spec leaves free (U12, U14) -/

theorem resultIn_of_some {i : Instr} {s : State} {r : Reg} {o : Option Word} {v : Word}
    (run : exec i s = .next ((s.setRegOrFree r o).advance 1)) (value : o = some v) : ResultIn i s r v 1 := by
  subst value
  exact resultIn_of_exec run

theorem freeResultIn_of_none {i : Instr} {s : State} {r : Reg} {o : Option Word}
    (run : exec i s = .next ((s.setRegOrFree r o).advance 1)) (free : o = none) : FreeResultIn i s r := by
  subst free
  exact ⟨_, run, (keepsAllBut_draw s).writesReg (by decide) r _ 1, rfl⟩

theorem exec_bsl (rA rB : Reg) (s : State) : exec (.bsl rA rB) s =
    .next ((s.setRegOrFree rA (shiftLeft (s.reg rA) (s.reg rB))).advance 1) := rfl

theorem exec_bsr (rA rB : Reg) (s : State) : exec (.bsr rA rB) s =
    .next ((s.setRegOrFree rA (shiftRight s.cfg.bsrFn (s.reg rA) (s.reg rB))).advance 1) := rfl

theorem exec_idiv (rA rB : Reg) (s : State) : exec (.idiv rA rB) s =
    .next ((s.setRegOrFree rA (quotient s.cfg.divFn (s.reg rA) (s.reg rB))).advance 1) := rfl

theorem exec_imod (rA rB : Reg) (s : State) : exec (.imod rA rB) s =
    .next ((s.setRegOrFree rA (remainder s.cfg.modFn (s.reg rA) (s.reg rB))).advance 1) := rfl

/-! #### BSL and BSR -/

theorem shiftLeft_of_lt {a n : Word} (h : n.toNat < 32) :
    shiftLeft a n = some (BitVec.ofNat 32 (a.toNat * 2 ^ n.toNat)) := by
  rw [shiftLeft, if_pos h, Option.some_inj]
  refine BitVec.eq_of_toNat_eq ?_
  rw [BitVec.toNat_shiftLeft, BitVec.toNat_ofNat, Nat.shiftLeft_eq]

theorem shiftLeft_of_ge {a n : Word} (h : 32 ≤ n.toNat) : shiftLeft a n = none := if_neg (Nat.not_lt.2 h)

theorem shiftRight_of_ge {f : BsrReading} {a n : Word} (h : 32 ≤ n.toNat) : shiftRight f a n = none := if_pos h

theorem ushiftRight_eq_ofNat (a : Word) (n : Nat) : a >>> n = BitVec.ofNat 32 (a.toNat / 2 ^ n) := by
  refine BitVec.eq_of_toNat_eq ?_
  rw [BitVec.toNat_ushiftRight, BitVec.toNat_ofNat, Nat.shiftRight_eq_div_pow,
    Nat.mod_eq_of_lt ((Nat.div_le_self _ _).trans_lt a.isLt)]

theorem sshiftRight_eq_ofInt (a : Word) (n : Nat) : a.sshiftRight n = BitVec.ofInt 32 (a.toInt / 2 ^ n) := by
  rw [BitVec.sshiftRight, Int.shiftRight_eq_div_pow]
  norm_cast

/-- Bit 31 of a word, as a bound. -/
theorem msb_eq_false_iff_lt (a : Word) : a.msb = false ↔ a.toNat < 2 ^ 31 := by
  simp [BitVec.msb_eq_decide]

/-- The amounts and values where every candidate for BSR_FN agrees (92_eei_decisions.md D12). -/
theorem shiftRight_of_agreed {f : BsrReading} {a n : Word} (h : n.toNat < 32) (agreed : a.toNat < 2 ^ 31 ∨ n = 0#32) :
    shiftRight f a n = some (BitVec.ofNat 32 (a.toNat / 2 ^ n.toNat)) := by
  have shifts : (n = 0#32 || !a.msb) = true := by
    rw [← msb_eq_false_iff_lt] at agreed
    rcases agreed with clear | zero <;> simp [*]
  rw [shiftRight, if_neg (Nat.not_le.2 h), if_pos shifts, ushiftRight_eq_ofNat]

/-- The amounts and values that BSR_FN decides (92_eei_decisions.md D12). -/
theorem shiftRight_of_open {f : BsrReading} {a n : Word} (set : 2 ^ 31 ≤ a.toNat) (pos : 0 < n.toNat)
    (h : n.toNat < 32) : shiftRight f a n = some (bsrFill f a n) := by
  have fills : ¬ (n = 0#32 || !a.msb) = true := by
    have msb : a.msb = true := by simpa [BitVec.msb_eq_decide] using set
    have notZero : n ≠ 0#32 := by
      rintro rfl
      exact absurd pos (by decide)
    simp [msb, notZero]
  rw [shiftRight, if_neg (Nat.not_le.2 h), if_neg fills]

/-- Settles O3: each shift in the agreed range is the product with, or the quotient by, a power of two. -/
theorem shiftsInRangeResults : Obligations.ShiftsInRangeResults := fun s rA rB inRange =>
  ⟨resultIn_of_some (exec_bsl rA rB s) (shiftLeft_of_lt inRange),
    fun agreed => resultIn_of_some (exec_bsr rA rB s) (shiftRight_of_agreed inRange agreed)⟩

/-- Settles O4: an amount of 32 or more has no result, and the next free value is written. -/
theorem shiftsOutOfRangeGiveFreeValue : Obligations.ShiftsOutOfRangeGiveFreeValue := fun s rA rB outOfRange =>
  ⟨freeResultIn_of_none (exec_bsl rA rB s) (shiftLeft_of_ge outOfRange),
    freeResultIn_of_none (exec_bsr rA rB s) (shiftRight_of_ge outOfRange)⟩

/-- Settles O5: with bit 31 set and a non-zero amount the result is BSR_FN's, whichever it is. -/
theorem bsrFillFollowsConfiguration : Obligations.BsrFillFollowsConfiguration := by
  intro s rA rB set pos inRange
  have filled := resultIn_of_some (exec_bsr rA rB s) (shiftRight_of_open set pos inRange)
  refine ⟨fun f => ?logical, fun f => ?arithmetic, fun f => ?other⟩
  all_goals rw [f] at filled
  case logical => exact ushiftRight_eq_ofNat _ _ ▸ filled
  case arithmetic => exact sshiftRight_eq_ofInt _ _ ▸ filled
  case other => exact filled

/-! #### INEG -/

theorem ineg_encodedAs (rA : Reg) : EncodedAs (.ineg rA) (fieldAt rA 8 ||| 0x0052#16) :=
  encodedAs_of_encode fun _ => congrArg (fun w => [w]) (packWide_zero_eq_or rA 5 2)

theorem exec_ineg (rA : Reg) (s : State) :
    exec (.ineg rA) s = .next ((s.setReg rA (0#32 - s.reg rA)).setPc (s.nextPc 1)) := rfl

theorem zero_sub_eq_ofInt (a : Word) : 0#32 - a = BitVec.ofInt 32 (-(a.toNat : Int)) := by
  rw [sub_eq_ofInt, BitVec.toNat_zero, Int.natCast_zero, Int.zero_sub]

/-- Settles O7: the word is the packed one with rB zero, and the meaning is one register write. -/
theorem inegResult : Obligations.InegResult := fun s rA =>
  ⟨ineg_encodedAs rA, zero_sub_eq_ofInt (s.reg rA) ▸ resultIn_of_exec (exec_ineg rA s)⟩

/-! #### IDIV and IMOD -/

theorem quotient_of_lt {f : DivReading} {a b : Word} (ha : a.toNat < 2 ^ 31) (hb : b.toNat < 2 ^ 31) (h : b ≠ 0#32) :
    quotient f a b = some (BitVec.ofNat 32 (a.toNat / b.toNat)) := by
  rw [quotient, if_neg h, if_pos ⟨ha, hb⟩]

theorem remainder_of_lt {f : DivReading} {a b : Word} (ha : a.toNat < 2 ^ 31) (hb : b.toNat < 2 ^ 31) (h : b ≠ 0#32) :
    remainder f a b = some (BitVec.ofNat 32 (a.toNat % b.toNat)) := by
  rw [remainder, if_neg h, if_pos ⟨ha, hb⟩, ← Nat.mod_eq_sub_mul_div]

theorem quotient_of_ge {f : DivReading} {a b : Word} (h : b ≠ 0#32) (wide : 2 ^ 31 ≤ a.toNat ∨ 2 ^ 31 ≤ b.toNat) :
    quotient f a b = some (divReading f a b) := by
  rw [quotient, if_neg h, if_neg (by omega)]

theorem remainder_of_ge {f : DivReading} {a b : Word} (h : b ≠ 0#32) (wide : 2 ^ 31 ≤ a.toNat ∨ 2 ^ 31 ≤ b.toNat) :
    remainder f a b = some (modReading f a b) := by
  rw [remainder, if_neg h, if_neg (by omega)]

theorem udiv_eq_ofNat (a b : Word) : a.udiv b = BitVec.ofNat 32 (a.toNat / b.toNat) := by
  refine BitVec.eq_of_toNat_eq ?_
  rw [BitVec.udiv_eq, BitVec.toNat_udiv, BitVec.toNat_ofNat, Nat.mod_eq_of_lt ((Nat.div_le_self _ _).trans_lt a.isLt)]

theorem umod_eq_ofNat (a b : Word) : a.umod b = BitVec.ofNat 32 (a.toNat % b.toNat) := by
  refine BitVec.eq_of_toNat_eq ?_
  rw [BitVec.umod_eq, BitVec.toNat_umod, BitVec.toNat_ofNat, Nat.mod_eq_of_lt ((Nat.mod_le _ _).trans_lt a.isLt)]

theorem sdiv_eq_ofInt (a b : Word) : a.sdiv b = BitVec.ofInt 32 (a.toInt.tdiv b.toInt) := by
  refine BitVec.eq_of_toInt_eq ?_
  rw [BitVec.toInt_sdiv, BitVec.toInt_ofInt]

theorem srem_eq_ofInt (a b : Word) : a.srem b = BitVec.ofInt 32 (a.toInt.tmod b.toInt) := by
  rw [← BitVec.toInt_srem, BitVec.ofInt_toInt]

/-- Settles O8: below 2^31 no reading is asked. -/
theorem divModExactResults : Obligations.DivModExactResults := fun s rA rB ha hb h =>
  ⟨resultIn_of_some (exec_idiv rA rB s) (quotient_of_lt ha hb h),
    resultIn_of_some (exec_imod rA rB s) (remainder_of_lt ha hb h)⟩

/-- Settles O9: a divisor of zero has no result, and the next free value is written. -/
theorem divModByZeroGoOn : Obligations.DivModByZeroGoOn := fun s rA rB zero =>
  ⟨freeResultIn_of_none (exec_idiv rA rB s) (if_pos zero), freeResultIn_of_none (exec_imod rA rB s) (if_pos zero)⟩

/-- Settles O10: at or above 2^31 the results are those of DIV_FN and MOD_FN, whichever they are. -/
theorem divModReadingsFollowConfiguration : Obligations.DivModReadingsFollowConfiguration := by
  intro s rA rB notZero wide
  have div := resultIn_of_some (exec_idiv rA rB s) (quotient_of_ge notZero wide)
  have mod := resultIn_of_some (exec_imod rA rB s) (remainder_of_ge notZero wide)
  refine ⟨fun f => ?udiv, fun f fits => ?sdiv, fun f => ?divFn, fun f => ?umod, fun f => ?smod, fun f => ?modFn⟩
  case udiv =>
    rw [f] at div
    exact udiv_eq_ofNat _ _ ▸ div
  case sdiv =>
    rw [f, divReading, if_neg fits] at div
    exact sdiv_eq_ofInt _ _ ▸ div
  case divFn =>
    rcases f with f | ⟨f, overflow⟩
    · rwa [f] at div
    · rwa [f, divReading, if_pos overflow] at div
  case umod =>
    rw [f] at mod
    exact umod_eq_ofNat _ _ ▸ mod
  case smod =>
    rw [f] at mod
    exact srem_eq_ofInt _ _ ▸ mod
  case modFn => rwa [f] at mod

end Sys2Proof.Machine

namespace Sys2Proof.Machine

/-! ### Branches, calls and RET (41_branch.md R110 to R120; 44_ret_halt.md R161) -/

/-! #### The words of JMP and CALL -/

/-- The packed word of a branch without rB, whose field the encoder writes as zero (30_encoding.md R71). -/
theorem packBranch_zero_eq_or (mode call : BitVec 1) (rA : Reg) (cond : BitVec 2) :
    packBranch mode call 0 rA cond = fieldAt rA 6 ||| (mode ++ call ++ 0#8 ++ cond ++ 1#4) := by
  unfold packBranch fieldAt
  ext k hk
  grind

theorem encode_jmpI (n : RegBranchLen) (address : Word) :
    encode n (.jmpI address) = [0x8001#16, address.extractLsb' 16 16, address.extractLsb' 0 16] := rfl

theorem encode_callI (n : RegBranchLen) (address : Word) :
    encode n (.callI address) = [0xC001#16, address.extractLsb' 16 16, address.extractLsb' 0 16] := rfl

theorem encode_jmpR (n : RegBranchLen) (rA : Reg) :
    encode n (.jmpR rA) = (fieldAt rA 6 ||| 0x0001#16) :: regBranchTail n :=
  congrArg (· :: regBranchTail n) (packBranch_zero_eq_or 0 0 rA 0)

theorem encode_callR (n : RegBranchLen) (rA : Reg) :
    encode n (.callR rA) = (fieldAt rA 6 ||| 0x4001#16) :: regBranchTail n :=
  congrArg (· :: regBranchTail n) (packBranch_zero_eq_or 0 1 rA 0)

/-! #### Where control goes -/

theorem branchTarget_eq_lowTarget (t : Word) : branchTarget t = lowTarget t := by
  refine BitVec.eq_of_toNat_eq ?_
  simp [branchTarget, lowTarget, BitVec.extractLsb'_toNat]

theorem goesTo_setPc (s : State) (v : Word) : GoesTo s (s.setPc v) v := ⟨rfl, keepsAllBut_setPc s v⟩

theorem goesTo_branchTarget (s : State) (t : Word) : GoesTo s (s.setPc (branchTarget t)) (lowTarget t) := by
  rw [← branchTarget_eq_lowTarget]
  exact goesTo_setPc s _

/-! #### JMP -/

theorem fetch16_of_odd {s : State} {a : Word} (odd : isOdd a = true) : s.fetch16 a = .error .badFetch := by
  rw [State.fetch16, odd, Bool.true_or, if_pos rfl]

/-- A first word that cannot be fetched stops the step (20_memory.md R41). -/
theorem step_of_fetch16_error {s : State} {f : Fault} (running : s.halted = false)
    (first : s.fetch16 s.pc = .error f) : step s = .fault f := by
  refine step_eq_fault.2 ⟨running, .inl ?_⟩
  simp only [State.fetchInstr, first, bind, Except.bind]

/-- A branch keeps the parity of its operand, and an odd address is not fetched from (92_eei_decisions.md D5). -/
theorem step_of_odd_target {s : State} {t : Word} (odd : isOdd t = true) (running : s.halted = false) :
    step (s.setPc (branchTarget t)) = .fault .badFetch :=
  step_of_fetch16_error running (fetch16_of_odd ((branchTarget_range t).1.trans odd))

/-- Settles O11: JMP changes nothing but pc, to the 19 low bits of its operand, whose parity is the operand's. -/
theorem jmpResults : Obligations.JmpResults := fun s rA address =>
  ⟨fun n => encode_jmpI n address, fun n => encode_jmpR n rA,
    ⟨_, rfl, goesTo_branchTarget s address, step_of_odd_target⟩,
    ⟨_, rfl, goesTo_branchTarget s (s.reg rA), step_of_odd_target⟩⟩

/-! #### The condition (41_branch.md R114) -/

theorem branchTaken_of_eq {c : Word} {sense : Bool} (h : c = if sense then 1#32 else 0#32) :
    branchTaken c sense = .ok true := by
  subst h
  cases sense <;> rfl

theorem branchTaken_of_not {c : Word} {sense : Bool} (h : c = if sense then 0#32 else 1#32) :
    branchTaken c sense = .ok false := by
  subst h
  cases sense <;> rfl

theorem branchTaken_of_ne {c : Word} {sense : Bool} (h0 : c ≠ 0#32) (h1 : c ≠ 1#32) :
    branchTaken c sense = .error .conditionNotBool := by
  rw [branchTaken, if_neg h1, if_neg h0]

/-- The rule of the conditional jumps. -/
theorem jumpsOn_of_exec {i : Instr} {s : State} {sense : Bool} {c target next : Word}
    (run : exec i s = s.jumpIf sense c target next) : JumpsOn i s sense c target next := by
  unfold State.jumpIf at run
  refine ⟨fun h => ?taken, fun h => ?notTaken, fun h0 h1 => ?neither⟩
  case taken =>
    rw [branchTaken_of_eq h] at run
    exact ⟨_, run, goesTo_branchTarget s target⟩
  case notTaken =>
    rw [branchTaken_of_not h] at run
    exact ⟨_, run, goesTo_setPc s next⟩
  case neither =>
    rw [branchTaken_of_ne h0 h1] at run
    exact run

/-- Settles O12: each form is the conditional jump on its operands. -/
theorem conditionalJumpResults : Obligations.ConditionalJumpResults := fun _ _ _ _ =>
  ⟨jumpsOn_of_exec rfl, jumpsOn_of_exec rfl, jumpsOn_of_exec rfl, jumpsOn_of_exec rfl⟩

/-! #### CALL, CALLIF and CALLIFNOT -/

theorem callTo_of_full {s : State} {target next : Word} (full : s.callStack.length = s.cfg.callStackDepth) :
    s.callTo target next = .fault .callStackFull := by
  rw [State.callTo, State.callPush, if_neg (by omega), andThen_error]

/-- The rule of a call that is taken. -/
theorem calls_of_exec {i : Instr} {s : State} {target next : Word} (run : exec i s = s.callTo target next) :
    Calls i s target next := by
  refine ⟨fun room => ⟨_, run.trans (State.callTo_eq_next.2 ⟨room, rfl⟩), ?_, rfl, ?_⟩,
    fun full => run.trans (callTo_of_full full)⟩
  · exact branchTarget_eq_lowTarget target
  · exact (keepsAllBut_setCallStack s _).setPc _

/-- Settles O13: both forms are the call of their operand. -/
theorem callResults : Obligations.CallResults := fun _ rA address =>
  ⟨fun n => encode_callI n address, fun n => encode_callR n rA, calls_of_exec rfl, calls_of_exec rfl⟩

/-- The rule of the conditional calls. -/
theorem callsOn_of_exec {i : Instr} {s : State} {sense : Bool} {c target next : Word}
    (run : exec i s = s.callIf sense c target next) : CallsOn i s sense c target next := by
  unfold State.callIf at run
  refine ⟨fun h => ?taken, fun h => ?notTaken, fun h0 h1 => ?neither⟩
  case taken =>
    rw [branchTaken_of_eq h] at run
    exact calls_of_exec run
  case notTaken =>
    rw [branchTaken_of_not h] at run
    exact ⟨_, run, goesTo_setPc s next⟩
  case neither =>
    rw [branchTaken_of_ne h0 h1] at run
    exact run

/-- Settles O14: each form is the conditional call on its operands. -/
theorem conditionalCallResults : Obligations.ConditionalCallResults := fun _ _ _ _ =>
  ⟨callsOn_of_exec rfl, callsOn_of_exec rfl, callsOn_of_exec rfl, callsOn_of_exec rfl⟩

/-! #### RET -/

theorem decodeRet_ret {w : Half} (bit : field w 4 1 = 0#1) : decodeRet w = .ok .ret := by
  simp [decodeRet, bit]

theorem decodeWords_ret {w : Half} (low : w &&& 0x001F#16 = 0x0004#16) (w1 w2 : Half) :
    decodeWords w w1 w2 = .ok .ret :=
  (decodeWords_eq_decodeRet (field_eq_of_and_eq low rfl) w1 w2).trans (decodeRet_ret (field_eq_of_and_eq low rfl))

theorem exec_ret_of_nil {s : State} (empty : s.callStack = []) : exec .ret s = .fault .callStackEmpty := by
  have noEntry : s.callPop = .error .callStackEmpty := by rw [State.callPop, empty, List.getLast?_nil]
  show andThen s.callPop _ = _
  rw [noEntry, andThen_error]

/-- Settles O15: RET takes the newest entry from the call stack and changes nothing else but pc. -/
theorem retResults : Obligations.RetResults :=
  ⟨fun s _ _ calls => ⟨_, exec_ret calls, rfl, rfl, (keepsAllBut_setCallStack s _).setPc _⟩,
    fun _ empty => exec_ret_of_nil empty, fun _ w1 w2 low => decodeWords_ret low w1 w2⟩

end Sys2Proof.Machine

namespace Sys2Proof.Machine

/-! ### The address map (20_memory.md R31) -/

theorem region_eq_absent {a : Word} : region a = .absent ↔
    (0x80000 ≤ a.toNat ∧ a.toNat < 0x80000000) ∨ 0x8000D000 ≤ a.toNat := by
  unfold region
  split_ifs <;> simp <;> omega

/-- Settles O18: the four ranges, one by one. -/
theorem addressMap : Obligations.AddressMap := by
  intro a
  have bound := a.isLt
  refine ⟨region_eq_sram.trans ?_, region_eq_vram.trans ?_, region_eq_dev.trans ?_, region_eq_absent.trans ?_⟩
  all_goals omega

/-! ### The half-word moves: LD.W constant and CP.W (43_memory_access.md R143, R144, R151) -/

/-- Bits 31:16 of the old value with a half word below them, as the number they make. -/
theorem append_eq_low16Result (old : Word) (v : Half) :
    old.extractLsb' 16 16 ++ v = low16Result .preserve old v := by
  have high : (old.extractLsb' 16 16).toNat = old.toNat / 2 ^ 16 := by
    rw [BitVec.extractLsb'_toNat, Nat.shiftRight_eq_div_pow]
    omega
  rw [low16Result, ← high, ← toNat_append_eq_add, BitVec.ofNat_toNat, BitVec.setWidth_eq]

theorem State.writeLow16_eq_setReg (s : State) (i : Reg) (v : Half) :
    s.writeLow16 i v = s.setReg i (low16Result s.cfg.wordWriteUpper (s.reg i) v) := by
  unfold State.writeLow16
  cases s.cfg.wordWriteUpper
  · exact congrArg (s.setReg i) (BitVec.ofNat_toNat 32 v).symm
  · exact congrArg (s.setReg i) (append_eq_low16Result (s.reg i) v)

theorem exec_ldWImm (rA : Reg) (c : Half) (s : State) : exec (.ldWImm rA c) s =
    .next ((s.setReg rA (low16Result s.cfg.wordWriteUpper (s.reg rA) c)).setPc (s.nextPc 2)) := by
  rw [← State.setReg_nextPc, ← State.writeLow16_eq_setReg]
  rfl

theorem exec_cpW (rA rB : Reg) (s : State) : exec (.cpW rA rB) s =
    .next ((s.setReg rA (low16Result s.cfg.wordWriteUpper (s.reg rA) ((s.reg rB).extractLsb' 0 16))).setPc
      (s.nextPc 1)) := by
  rw [← State.setReg_nextPc, ← State.writeLow16_eq_setReg]
  rfl

/-- Settles O26: each is one register write of the 16-bit kind. -/
theorem halfMoveResults : Obligations.HalfMoveResults := fun s rA rB c =>
  ⟨resultIn_of_exec (exec_ldWImm rA c s), resultIn_of_exec (exec_cpW rA rB s)⟩

end Sys2Proof.Machine

namespace Sys2Proof.Machine

/-! ### VSYNC (47_io.md R181; 92_eei_decisions.md D28) -/

theorem vsync_encodedAs : EncodedAs .vsync 0x0008#16 := ⟨fun _ => rfl, rfl⟩

theorem exec_vsync_of_sync {s : State} (sync : s.verticalSync = true) :
    exec .vsync s = .next (s.liftSync.setPc (s.nextPc 1)) := by
  show execVsync s = _
  rw [execVsync, if_pos sync]
  rfl

theorem exec_vsync_of_noSync {s : State} (noSync : s.verticalSync = false) : exec .vsync s = .next s.holdSync := by
  show execVsync s = _
  rw [execVsync, if_neg (by simp [noSync])]

/-- Settles O40: VSYNC writes the wait, and moves pc on just where a sync is signalled. -/
theorem vsyncResults : Obligations.VsyncResults := fun s =>
  ⟨vsync_encodedAs,
    fun sync => ⟨_, exec_vsync_of_sync sync, rfl, rfl, (keepsAllBut_liftSync s).setPc _⟩,
    fun noSync => ⟨_, exec_vsync_of_noSync noSync, rfl, rfl, keepsAllBut_holdSync s⟩⟩

/-- The CPU holding at a VSYNC, after `n` steps of the video output. -/
def State.heldFor (s : State) (n : Nat) : State := { s with vsyncWait := true, videoTime := s.videoTime + n }

/-- The CPU past a VSYNC that lasted `n` steps of the video output. -/
def State.releasedAfter (s : State) (n : Nat) : State := ((s.heldFor n).liftSync).setPc (s.nextPc 1)

theorem State.heldFor_add (s : State) (m n : Nat) : (s.heldFor m).heldFor n = s.heldFor (m + n) := by
  simp [State.heldFor, Nat.add_assoc]

theorem State.heldFor_fetchInstr (s : State) (n : Nat) : (s.heldFor n).fetchInstr = s.fetchInstr := rfl

theorem keepsAllBut_heldFor (s : State) (n : Nat) : KeepsAllBut [.vsync, .video] s (s.heldFor n) := by
  intro p hp
  cases p
  case vsync | video => simp at hp
  case regs => exact fun _ => rfl
  case bytes => intro place; cases place <;> rfl
  case sprites => exact ⟨rfl, rfl, rfl⟩
  all_goals rfl

theorem keepsAllBut_releasedAfter (s : State) (n : Nat) : KeepsAllBut [.vsync, .video] s (s.releasedAfter n) :=
  ((keepsAllBut_heldFor s n).trans ((keepsAllBut_liftSync _).mono (by simp))).setPc _

/-- The step of a VSYNC where no sync is signalled. -/
theorem step_heldFor {s : State} (running : s.halted = false) (fetched : s.fetchInstr = .ok .vsync)
    (noSync : isSyncTick s.videoTime = false) : step s = .next (s.heldFor 1) := by
  rw [step_of_fetchInstr running fetched, exec_vsync_of_noSync noSync]
  rfl

/-- The step of a VSYNC where a sync is signalled. -/
theorem step_releasedAfter {s : State} (running : s.halted = false) (fetched : s.fetchInstr = .ok .vsync)
    (sync : isSyncTick s.videoTime = true) : step s = .next (s.releasedAfter 1) := by
  rw [step_of_fetchInstr running fetched, exec_vsync_of_sync sync]
  rfl

/-- A VSYNC waits as long as no sync is signalled. -/
theorem run_heldFor {s : State} (running : s.halted = false) (fetched : s.fetchInstr = .ok .vsync) :
    ∀ j, (∀ m ≤ j, isSyncTick (s.videoTime + m) = false) → core.run (j + 1) s = .next (s.heldFor (j + 1))
  | 0, noSync => run_succ_of_next (k := 0) (step_heldFor running fetched (noSync 0 (Nat.zero_le _)))
  | j + 1, noSync => by
    have later (m : Nat) : (s.heldFor 1).videoTime + m = s.videoTime + (m + 1) := by
      show s.videoTime + 1 + m = _
      omega
    rw [run_succ_of_next (step_heldFor running fetched (noSync 0 (Nat.zero_le _))),
      run_heldFor (s := s.heldFor 1) running fetched j fun m h => later m ▸ noSync (m + 1) (by omega),
      State.heldFor_add, Nat.add_comm 1 (j + 1)]

/-- The run that a sync ends, at the first one. -/
theorem run_releasedAfter {s : State} (running : s.halted = false) (fetched : s.fetchInstr = .ok .vsync) :
    ∀ k, (∀ m < k, isSyncTick (s.videoTime + m) = false) → isSyncTick (s.videoTime + k) = true →
      core.run (k + 1) s = .next (s.releasedAfter (k + 1))
  | 0, _, sync => run_succ_of_next (k := 0) (step_releasedAfter running fetched sync)
  | k + 1, noSync, sync => by
    have later (m : Nat) : (s.heldFor 1).videoTime + m = s.videoTime + (m + 1) := by
      show s.videoTime + 1 + m = _
      omega
    rw [run_succ_of_next (step_heldFor running fetched (noSync 0 k.succ_pos)),
      run_releasedAfter (s := s.heldFor 1) running fetched k (fun m h => later m ▸ noSync (m + 1) (by omega))
        (later k ▸ sync)]
    show Host.Outcome.next ((((s.heldFor 1).heldFor (k + 1)).liftSync).setPc _) = _
    rw [State.heldFor_add, Nat.add_comm 1 (k + 1)]
    rfl

/-- Settles O41: a sync comes again, the first one ends the wait, and until then each step is one of the video output
beside a CPU that holds. -/
theorem vsyncEventuallyCompletes : Obligations.VsyncEventuallyCompletes := by
  intro s running fetched
  have recurs := exists_isSyncTick s.videoTime
  have noSync (m : Nat) (h : m < Nat.find recurs) : isSyncTick (s.videoTime + m) = false := by
    simpa using Nat.find_min recurs h
  refine ⟨Nat.find recurs, _, Nat.find_spec recurs, fun j h => ⟨noSync j h, s.heldFor (j + 1), ?_, rfl, rfl, ?_⟩,
    run_releasedAfter running fetched _ noSync (Nat.find_spec recurs), rfl, rfl, keepsAllBut_releasedAfter s _⟩
  · exact run_heldFor running fetched j fun m hm => noSync m (by omega)
  · exact keepsAllBut_heldFor s _

end Sys2Proof.Machine

namespace Sys2Proof.Machine

/-! ### The ports and the frame buffers: IN, OUT, FSEL, CLF (47_io.md R182 to R187) -/

/-! #### IN and OUT -/

theorem exec_input (rA : Reg) (port : Half) (s : State) : exec (.input rA port) s =
    .next (((s.draw.emit (.input port s.freeWord)).setReg rA s.freeWord).setPc (s.nextPc 2)) := rfl

theorem exec_output (rA : Reg) (port : Half) (s : State) :
    exec (.output rA port) s = .next ((s.emit (.output port (s.reg rA))).setPc (s.nextPc 2)) := rfl

/-- Settles O42: IN draws the next free value and records it before it writes the register; OUT records only. -/
theorem inOutResults : Obligations.InOutResults := fun s rA port =>
  ⟨⟨_, exec_input rA port s,
      ((keepsAllBut_draw s).append (keepsAllBut_emit s.draw _)).writesReg (by simp) rA _ 2, rfl, rfl⟩,
    ⟨_, exec_output rA port s, rfl, rfl, (keepsAllBut_emit s _).setPc _⟩⟩

/-! #### FSEL and CLF -/

theorem bit0_eq_ofNat (v : Word) : v.extractLsb' 0 1 = BitVec.ofNat 1 (v.toNat % 2) := by
  refine BitVec.eq_of_toNat_eq ?_
  simp [BitVec.extractLsb'_toNat]

theorem State.writeTarget_eq_sub (s : State) : s.writeTarget = 1#1 - s.displayFB := by
  unfold State.writeTarget
  rcases bit_zero_or_one s.displayFB with h | h <;> rw [h] <;> decide

/-- A write of one frame buffer reaches no place outside it. -/
theorem State.setFb_byteAt_of_ne (s : State) (k : BitVec 1) (f : FrameBuffer) {p : Place}
    (outside : ∀ o, p ≠ .frame k o) : (s.setFb k f).byteAt p = s.byteAt p := by
  cases p with
  | frame j o =>
    have other : j ≠ k := fun same => outside o (same ▸ rfl)
    exact congrArg (FrameBuffer.read · o) (s.fb_setFb_of_ne k j f other)
  | sram | device => rfl

theorem State.setFb_byteAt_same (s : State) (k : BitVec 1) (f : FrameBuffer) (o : Nat) :
    (s.setFb k f).byteAt (.frame k o) = f.read o := by
  rw [State.byteAt, State.fb_setFb_same]

theorem FrameBuffer.read_clear_of_ne {f : FrameBuffer} (defined : f ≠ .drawn) (b : Byte) (o : Nat) :
    (f.clear b).read o = some b := by
  cases f with
  | cpu => exact FrameBuffer.read_clear _ b o
  | drawn => exact absurd rfl defined

theorem exec_clf (rA : Reg) (s : State) : exec (.clf rA) s =
    .next ((s.setFb s.writeTarget ((s.fb s.writeTarget).clear ((s.reg rA).extractLsb' 0 8))).setPc (s.nextPc 1)) := rfl

theorem fsel_completes (s : State) (rA : Reg) : Completes (.fsel rA) s fun t => t.pc = s.pc + 2#32 ∧
    t.displayFB = BitVec.ofNat 1 ((s.reg rA).toNat % 2) ∧
    t.events = s.events ++ [.frameSelect (BitVec.ofNat 1 ((s.reg rA).toNat % 2))] ∧
    KeepsAllBut [.displayFB, .events] s t := by
  refine ⟨_, exec_fsel rA s, rfl, bit0_eq_ofNat _, ?_, ?_⟩
  · rw [← bit0_eq_ofNat]
    rfl
  · exact ((keepsAllBut_selectFrame s _).append (keepsAllBut_emit _ _)).setPc _

theorem clf_completes (s : State) (rA : Reg) : Completes (.clf rA) s fun t => t.pc = s.pc + 2#32 ∧
    (s.fb s.writeTarget ≠ .drawn → ∀ o, o < 0xC000 →
      t.byteAt (.frame s.writeTarget o) = some ((s.reg rA).extractLsb' 0 8)) ∧
    (s.fb s.writeTarget = .drawn → ∀ o, t.byteAt (.frame s.writeTarget o) = none) ∧
    (∀ p, (∀ o, p ≠ .frame s.writeTarget o) → t.byteAt p = s.byteAt p) ∧ KeepsAllBut [.bytes] s t := by
  refine ⟨_, exec_clf rA s, rfl, fun defined o _ => ?defined, fun drawn o => ?drawn, fun p outside => ?outside,
    (keepsAllBut_setFb s _ _).setPc _⟩
  all_goals rw [State.setPc_byteAt]
  case defined => rw [State.setFb_byteAt_same, FrameBuffer.read_clear_of_ne defined]
  case drawn => rw [State.setFb_byteAt_same, drawn, FrameBuffer.read_clear]
  case outside => exact s.setFb_byteAt_of_ne _ _ outside

/-- Settles O43: FSEL writes DISPLAYFB and records it; CLF replaces the one buffer that is not displayed. -/
theorem fselClfResults : Obligations.FselClfResults := by
  intro s rA
  rw [← State.writeTarget_eq_sub]
  exact ⟨fsel_completes s rA, clf_completes s rA⟩

/-! #### SPRITE (47_io.md R188, R191) -/

theorem exec_sprite (rA rB : Reg) (s : State) : exec (.sprite rA rB) s =
    .next (((s.kickSprites (s.reg rA) (s.reg rB)).emit
      (.spriteKick (s.reg rA) (s.reg rB) s.spriteSheetPtr)).setPc (s.nextPc 1)) := rfl

/-- Neither frame buffer has defined contents: a SPRITE has run. -/
def State.Drawn (s : State) : Prop := ∀ k, s.fb k = .drawn

theorem State.Drawn.byteAt {s : State} (drawn : s.Drawn) (k : BitVec 1) (o : Nat) : s.byteAt (.frame k o) = none := by
  rw [State.byteAt, drawn k, FrameBuffer.read]

theorem State.Drawn.setFb {s : State} (drawn : s.Drawn) (k : BitVec 1) : (s.setFb k .drawn).Drawn := by
  intro j
  by_cases same : j = k
  · rw [same, State.fb_setFb_same]
  · rw [State.fb_setFb_of_ne _ _ _ _ same, drawn j]

theorem State.Drawn.store8 {s t : State} {a : Word} {b : Byte} (drawn : s.Drawn) (stored : s.store8 a b = .ok t) :
    t.Drawn := by
  rcases State.store8_eq_ok.1 stored with ⟨-, rfl⟩ | ⟨-, rfl⟩ | ⟨-, device⟩
  · exact drawn
  · rw [State.storePixel, drawn]
    exact drawn.setFb _
  · rcases State.storeDevice_eq_ok device with ⟨-, rfl⟩ | ⟨-, -, rfl⟩ | ⟨k, -, rfl⟩ | rfl
    all_goals exact drawn

theorem State.Drawn.storeSlot {s t : State} {a v : Word} (drawn : s.Drawn) (stored : s.storeSlot a v = .ok t) :
    t.Drawn := by
  unfold State.storeSlot at stored
  split at stored
  · obtain ⟨-, rfl⟩ := State.store32_eq_ok.1 stored
    exact drawn
  · obtain ⟨-, rfl⟩ := State.store16_eq_ok.1 stored
    exact drawn

/-- No later store or CLF gives a drawn buffer defined contents (92_eei_decisions.md D27). -/
theorem Effect.drawn {s t : State} {i : Instr} (effect : Effect s i t) (drawn : s.Drawn) : t.Drawn := by
  cases effect
  case stB stored => exact (drawn.store8 stored :)
  case stW stored =>
    obtain ⟨-, rfl⟩ := State.store16_eq_ok.1 stored
    exact drawn
  case push stored => exact (drawn.storeSlot stored :)
  case clf =>
    rw [drawn]
    exact drawn.setFb _
  case sprite => exact fun k => ite_self _
  all_goals exact drawn

theorem Reaches.drawn {s t : State} (run : Reaches s t) (drawn : s.Drawn) : t.Drawn := by
  induction run with
  | here => exact drawn
  | more _ next ih =>
    obtain ⟨u, rfl, ⟨-, rfl⟩ | ⟨-, i, -, run⟩⟩ := step_eq_next.1 next
    · exact ih
    · exact (exec_effect run).drawn ih

theorem keepsAllBut_sprite (s : State) (table count : Word) (e : Event) :
    KeepsAllBut [.sprites, .events, .bytes] s ((s.kickSprites table count).emit e) :=
  ((keepsAllBut_kickSprites s table count).append (keepsAllBut_emit _ e)).mono (by simp)

/-- Settles O45: the kick leaves both buffers drawn, and by induction on the run they stay so. -/
theorem spriteResults : Obligations.SpriteResults := by
  refine fun s rA rB => ⟨_, exec_sprite rA rB s, rfl, rfl, rfl, rfl, rfl, fun p notFrame => ?others,
    (keepsAllBut_sprite s _ _ _).setPc _, fun u run => (run.drawn fun k => ite_self _).byteAt⟩
  case others =>
    rw [State.setPc_byteAt, State.emit_byteAt]
    exact s.spriteStep_byteAt notFrame

end Sys2Proof.Machine

namespace Sys2Proof.Machine

/-! ### FLAGS: CMP and TEST (46_compare.md R170 to R174) -/

/-! #### The words -/

theorem cmpWord_eq_or (rB rA : Reg) (base : BitVec 4) :
    0#4 ++ rB ++ rA ++ base = fieldAt rB 8 ||| fieldAt rA 4 ||| (0#12 ++ base) := by
  unfold fieldAt
  ext k hk
  grind

theorem testWord_eq_or (rA : Reg) (mask : FlagBits) (base : BitVec 4) :
    0#2 ++ rA ++ mask ++ base = fieldAt rA 10 ||| (mask.setWidth 16 <<< 4) ||| (0#12 ++ base) := by
  unfold fieldAt
  ext k hk
  grind

theorem cmp_encodedAs (rA rB : Reg) : EncodedAs (.cmp rA rB) (fieldAt rB 8 ||| fieldAt rA 4 ||| 0x0007#16) :=
  encodedAs_of_encode fun _ => congrArg (fun w => [w]) (cmpWord_eq_or rB rA 7)

theorem test_encodedAs (rA : Reg) (mask : FlagBits) :
    EncodedAs (.test rA mask) (fieldAt rA 10 ||| (mask.setWidth 16 <<< 4) ||| 0x0006#16) :=
  encodedAs_of_encode fun _ => congrArg (fun w => [w]) (testWord_eq_or rA mask 6)

/-! #### The relations and the six bits -/

/-- `Less` is the order of the configuration's reading (46_compare.md R173 a): the readings differ only where the signs
do. -/
theorem less_eq_true {sign : CmpSign} {a b : Word} : less sign a b = true ↔ Ordered sign a b := by
  have boundA := a.isLt
  have boundB := b.isLt
  simp only [less, BitVec.msb_eq_decide]
  split_ifs with same
  all_goals rw [decide_eq_decide] at same
  case pos =>
    cases sign
    · rw [decide_eq_true_iff, Ordered, BitVec.toInt_eq_toNat_cond, BitVec.toInt_eq_toNat_cond]
      omega
    · exact decide_eq_true_iff
  case neg =>
    cases sign
    · rw [decide_eq_true_iff, Ordered, BitVec.toInt_eq_toNat_cond, BitVec.toInt_eq_toNat_cond]
      omega
    · rw [decide_eq_true_iff, Ordered]
      omega
/-- The two candidates for ZERO_FLAG_OPERAND differ only where one operand is zero and the other is not. -/
theorem zeroOperand_eq_zero {z : ZeroFlagOperand} {a b : Word} :
    zeroOperand z a b = 0#32 ↔ (if z = .rA then a else b) = 0#32 := by
  cases z with
  | rA => simp [zeroOperand]
  | rB =>
    show (if decide (a = 0#32) = decide (b = 0#32) then a else b) = 0#32 ↔ b = 0#32
    split_ifs with same
    · exact decide_eq_decide.1 same
    · rfl

/-- Both readings order any two words that differ. -/
theorem ne_iff_ordered (sign : CmpSign) (a b : Word) : a ≠ b ↔ Ordered sign a b ∨ Ordered sign b a := by
  cases sign
  · rw [Ne, ← BitVec.toInt_inj]
    exact lt_or_lt_iff_ne.symm
  · rw [Ne, ← BitVec.toNat_inj]
    exact lt_or_lt_iff_ne.symm

theorem not_ordered_iff (sign : CmpSign) (a b : Word) : ¬ Ordered sign a b ↔ Ordered sign b a ∨ a = b := by
  cases sign
  · rw [← BitVec.toInt_inj, eq_comm]
    exact not_lt.trans le_iff_lt_or_eq
  · rw [← BitVec.toNat_inj, eq_comm]
    exact not_lt.trans le_iff_lt_or_eq

/-- FLAGS bit by bit (10_state.md R15). -/
theorem getLsbD_packFlags (zero notEqual notZero less greater equal : Bool) :
    let f := packFlags zero notEqual notZero less greater equal
    f.getLsbD 0 = equal ∧ f.getLsbD 1 = greater ∧ f.getLsbD 2 = less ∧ f.getLsbD 3 = notZero ∧
      f.getLsbD 4 = notEqual ∧ f.getLsbD 5 = zero := by
  revert zero notEqual notZero less greater equal
  decide

/-- What CMP's FLAGS say of the operands `a` and `b`. -/
structure Compares (cfg : NekoConfig) (a b : Word) (f : FlagBits) : Prop where
  equal : f.getLsbD 0 = true ↔ a = b
  greater : f.getLsbD 1 = true ↔ Ordered cfg.cmpSigned b a
  less : f.getLsbD 2 = true ↔ Ordered cfg.cmpSigned a b
  notZero : f.getLsbD 3 = true ↔ (if cfg.zeroFlagOperand = .rA then a else b) ≠ 0#32
  notEqual : f.getLsbD 4 = true ↔ a ≠ b
  zero : f.getLsbD 5 = true ↔ (if cfg.zeroFlagOperand = .rA then a else b) = 0#32

theorem compares_cmpFlags (cfg : NekoConfig) (a b : Word) : Compares cfg a b (cmpFlags cfg a b) := by
  obtain ⟨equal, greater, less, notZero, notEqual, zero⟩ := getLsbD_packFlags
    (zeroOperand cfg.zeroFlagOperand a b = 0#32) (a ≠ b) (zeroOperand cfg.zeroFlagOperand a b ≠ 0#32)
    (less cfg.cmpSigned a b) (less cfg.cmpSigned b a) (a = b)
  constructor
  · exact equal ▸ decide_eq_true_iff
  · exact greater ▸ less_eq_true
  · exact less ▸ less_eq_true
  · exact notZero ▸ decide_eq_true_iff.trans zeroOperand_eq_zero.not
  · exact notEqual ▸ decide_eq_true_iff
  · exact zero ▸ decide_eq_true_iff.trans zeroOperand_eq_zero

/-! #### CMP -/

theorem exec_cmp (rA rB : Reg) (s : State) : exec (.cmp rA rB) s =
    .next ((s.setFlags (cmpFlags s.cfg (s.reg rA) (s.reg rB))).setPc (s.nextPc 1)) := rfl

/-- Settles O31: each bit of the value packed is the relation it is named for. -/
theorem cmpWritesEachFlag : Obligations.CmpWritesEachFlag := by
  intro s rA rB
  have bits := compares_cmpFlags s.cfg (s.reg rA) (s.reg rB)
  exact ⟨cmp_encodedAs rA rB, _, exec_cmp rA rB s, rfl, bits.equal, bits.greater, bits.less, bits.notZero,
    bits.notEqual, bits.zero, (keepsAllBut_setFlags s _).setPc _⟩

/-! #### TEST -/

theorem exec_test (rA : Reg) (mask : FlagBits) (s : State) :
    exec (.test rA mask) s = .next ((s.setReg rA (testValue s.flags mask)).setPc (s.nextPc 1)) := rfl

/-- Some masked flag is set. -/
def AnyFlag (flags mask : FlagBits) : Prop := ∃ k, flags.getLsbD k = true ∧ mask.getLsbD k = true

theorem and_ne_zero_iff_anyFlag (flags mask : FlagBits) : flags &&& mask ≠ 0#6 ↔ AnyFlag flags mask := by
  constructor
  · intro nonzero
    by_contra none
    refine nonzero (BitVec.eq_of_getLsbD_eq fun k _ => ?_)
    simpa [AnyFlag] using fun set => not_exists.1 none k ∘ And.intro set
  · rintro ⟨k, flag, masked⟩ zero
    have bit := congrArg (BitVec.getLsbD · k) zero
    simp [flag, masked] at bit

theorem testValue_of_anyFlag {flags mask : FlagBits} (h : AnyFlag flags mask) : testValue flags mask = 1#32 :=
  if_pos ((and_ne_zero_iff_anyFlag flags mask).2 h)

theorem testValue_of_not_anyFlag {flags mask : FlagBits} (h : ¬ AnyFlag flags mask) : testValue flags mask = 0#32 :=
  if_neg fun nonzero => h ((and_ne_zero_iff_anyFlag flags mask).1 nonzero)

theorem testTells_of_iff {rC : Reg} {mask : FlagBits} {t : State} {P : Prop} (h : AnyFlag t.flags mask ↔ P) :
    TestTells rC mask t P :=
  ⟨fun holds => testValue_of_anyFlag (h.2 holds) ▸ resultIn_of_exec (exec_test rC mask t),
    fun fails => testValue_of_not_anyFlag (fails ∘ h.1) ▸ resultIn_of_exec (exec_test rC mask t)⟩

/-- Settles O32: the word is TEST's format with its two fields, and the meaning is one register write. -/
theorem testResults : Obligations.TestResults := by
  intro s rA mask
  obtain ⟨set, clear⟩ := testTells_of_iff (rC := rA) (mask := mask) (t := s) Iff.rfl
  exact ⟨test_encodedAs rA mask, set, fun none => clear (not_exists.2 none)⟩

/-! #### CMP then TEST -/

/-- The bits that each mask of 46_compare.md's TEST table selects. -/
theorem anyFlag_masks (f : FlagBits) :
    (AnyFlag f 0x01#6 ↔ f.getLsbD 0 = true) ∧ (AnyFlag f 0x10#6 ↔ f.getLsbD 4 = true) ∧
    (AnyFlag f 0x06#6 ↔ f.getLsbD 2 = true ∨ f.getLsbD 1 = true) ∧
    (AnyFlag f 0x02#6 ↔ f.getLsbD 1 = true) ∧ (AnyFlag f 0x04#6 ↔ f.getLsbD 2 = true) ∧
    (AnyFlag f 0x03#6 ↔ f.getLsbD 1 = true ∨ f.getLsbD 0 = true) ∧
    (AnyFlag f 0x05#6 ↔ f.getLsbD 2 = true ∨ f.getLsbD 0 = true) ∧
    (AnyFlag f 0x00#6 ↔ False) ∧
    (AnyFlag f 0x3F#6 ↔ f ≠ 0#6) := by
  simp only [← and_ne_zero_iff_anyFlag]
  revert f
  decide

/-- What a TEST with each of these masks asks after a CMP of `a` and `b` (46_compare.md, corner cases). -/
theorem Compares.anyFlag {cfg : NekoConfig} {a b : Word} {f : FlagBits} (bits : Compares cfg a b f) :
    (AnyFlag f 0x01#6 ↔ a = b) ∧ (AnyFlag f 0x10#6 ↔ a ≠ b) ∧ (AnyFlag f 0x06#6 ↔ a ≠ b) ∧
    (AnyFlag f 0x02#6 ↔ Ordered cfg.cmpSigned b a) ∧ (AnyFlag f 0x04#6 ↔ Ordered cfg.cmpSigned a b) ∧
    (AnyFlag f 0x03#6 ↔ ¬ Ordered cfg.cmpSigned a b) ∧ (AnyFlag f 0x05#6 ↔ ¬ Ordered cfg.cmpSigned b a) ∧
    (AnyFlag f 0x00#6 ↔ False) ∧ (AnyFlag f 0x3F#6 ↔ True) := by
  have someFlag : f ≠ 0#6 := by
    rintro rfl
    exact absurd bits.equal (by simpa using bits.notEqual)
  obtain ⟨m01, m10, m06, m02, m04, m03, m05, m00, m3F⟩ := anyFlag_masks f
  rw [bits.less, bits.greater] at m06
  rw [bits.greater, bits.equal] at m03
  rw [bits.less, bits.equal, eq_comm] at m05
  exact ⟨m01.trans bits.equal, m10.trans bits.notEqual, m06.trans (ne_iff_ordered _ a b).symm, m02.trans bits.greater,
    m04.trans bits.less, m03.trans (not_ordered_iff _ a b).symm, m05.trans (not_ordered_iff _ b a).symm, m00,
    m3F.trans (iff_true_intro someFlag)⟩

/-- Settles O33: the mask's bits, read as relations of the operands, in either reading of the order. -/
theorem cmpThenTestComputesRelations : Obligations.CmpThenTestComputesRelations := by
  intro s t rA rB rC run
  obtain rfl := Host.Outcome.next.inj ((exec_cmp rA rB s).symm.trans run)
  obtain ⟨equal, notEqual, lessGreater, greater, less, greaterEqual, lessEqual, empty, full⟩ :=
    (compares_cmpFlags s.cfg (s.reg rA) (s.reg rB)).anyFlag
  exact ⟨testTells_of_iff equal, testTells_of_iff notEqual, testTells_of_iff lessGreater, testTells_of_iff greater,
    testTells_of_iff less, testTells_of_iff greaterEqual, testTells_of_iff lessEqual, testTells_of_iff empty,
    testTells_of_iff full⟩

end Sys2Proof.Machine

namespace Sys2Proof.Machine

/-! ### Memory: addresses, bytes and stores (20_memory.md R31 to R43) -/

/-! #### Addresses inside SRAM -/

theorem InSram.toNat_add {a : Word} {n k : Nat} (inside : InSram a n) (hk : k < n) :
    (a + BitVec.ofNat 32 k).toNat = a.toNat + k := by
  have inside : a.toNat + n ≤ 0x80000 := inside
  rw [BitVec.toNat_add, BitVec.toNat_ofNat]
  omega

theorem InSram.region {a : Word} {n : Nat} (inside : InSram a n) : ∀ b ∈ span a n, region b = .sram := by
  intro b hb
  obtain ⟨k, hk, rfl⟩ := mem_span.1 hb
  have bound : a.toNat + n ≤ 0x80000 := inside
  rw [region_eq_sram, inside.toNat_add hk]
  omega

theorem mem_span_self {a : Word} {n : Nat} (hn : 0 < n) : a ∈ span a n := mem_span.2 ⟨0, hn, (BitVec.add_zero a).symm⟩

theorem mem_span_two {a b : Word} : b ∈ span a 2 ↔ b = a ∨ b = a + 1#32 := by
  simp [span, List.range_succ]

theorem add_two_add_one (a : Word) : a + 2#32 + 1#32 = a + 3#32 := by
  rw [BitVec.add_assoc]
  rfl

theorem mem_span_four {a b : Word} : b ∈ span a 4 ↔ b ∈ span a 2 ∨ b ∈ span (a + 2#32) 2 := by
  rw [mem_span_two, mem_span_two, add_two_add_one]
  simp [span, List.range_succ, or_assoc]

/-- A word all of whose bytes are in SRAM does not run past its end. -/
theorem inSram_two_of_region {a : Word} (h : ∀ b ∈ span a 2, region b = .sram) : InSram a 2 := by
  have first := region_eq_sram.1 (h a (mem_span_self (by decide)))
  have second := region_eq_sram.1 (h (a + 1#32) (mem_span_two.2 (.inr rfl)))
  show a.toNat + 2 ≤ 0x80000
  bv_omega

theorem storeFault_of_inSram {a : Word} {n : Nat} (inside : InSram a n) (even : isOdd a = false) (hn : n ≠ 1) :
    storeFault a n = none := (storeFault_eq_none hn).2 ⟨inside.region, even⟩

theorem loadFault_of_inSram {a : Word} {n : Nat} (inside : InSram a n) (aligned : n = 1 ∨ isOdd a = false) :
    loadFault a n = none := loadFault_eq_none.2 ⟨inside.region, aligned⟩

/-- Where a wide store is admitted, a load is. -/
theorem loadFault_of_storeFault {a : Word} {n : Nat} (hn : n ≠ 1) (h : storeFault a n = none) :
    loadFault a n = none := by
  obtain ⟨region, even⟩ := (storeFault_eq_none hn).1 h
  exact loadFault_eq_none.2 ⟨region, .inr even⟩

/-! #### The bytes of SRAM -/

theorem InSram.sramByte {s : State} {a : Word} {n k : Nat} (inside : InSram a n) (hk : k < n) :
    s.sramByte (a + BitVec.ofNat 32 k) = s.byteAt (.sram (a.toNat + k)) := by
  rw [State.sramByte, inside.toNat_add hk]
  rfl

theorem State.pokeByte_byteAt (s : State) (a : Word) (b : Byte) (p : Place) :
    (s.pokeByte a b).byteAt p = if p = .sram a.toNat then some b else s.byteAt p := by
  cases p with
  | sram c => simp [State.byteAt, State.pokeByte, Memory.read_putSram]
  | frame k o => rfl
  | device o => rfl

theorem sramHalf_pokeHalf_of_ne (s : State) {a c : Word} (v : Half) (apart : ∀ b ∈ span a 2, b ∉ span c 2) :
    (s.pokeHalf c v).sramHalf a = s.sramHalf a := by
  have byte (b : Word) (hb : b ∈ span a 2) : (s.pokeHalf c v).sramByte b = s.sramByte b := by
    have outside := apart b hb
    rw [mem_span_two, not_or] at outside
    rw [State.sramByte_pokeHalf, if_neg outside.2, if_neg outside.1]
  rw [State.sramHalf, byte a (mem_span_two.2 (.inl rfl)), byte (a + 1#32) (mem_span_two.2 (.inr rfl))]
  rfl

/-- A dword read back after a store of it. -/
theorem sramWord_pokeWord (s : State) (a v : Word) : (s.pokeWord a v).sramWord a = some v := by
  have apart : ∀ b ∈ span a 2, b ∉ span (a + 2#32) 2 := by
    simp only [mem_span_two]
    rintro b (rfl | rfl) <;> bv_omega
  refine State.sramWord_eq_some.2 ⟨v.extractLsb' 16 16, v.extractLsb' 0 16, ?high, ?low, (append_operandWords v).symm⟩
  case high => exact (sramHalf_pokeHalf_of_ne _ _ apart).trans (State.sramHalf_pokeHalf _ _ _)
  case low => exact State.sramHalf_pokeHalf _ _ _

/-! #### What a store to SRAM reaches -/

/-- From `s` to `t` the `n` SRAM bytes at `a` are stored to, and no other byte. -/
structure Pokes (s t : State) (a n : Nat) : Prop where
  bytes : ∀ p, (∀ k < n, p ≠ .sram (a + k)) → t.byteAt p = s.byteAt p
  stored : ∀ c, c ∈ t.stored ↔ c ∈ s.stored ∨ (a ≤ c ∧ c < a + n)

theorem Pokes.append {s t u : State} {a m n : Nat} (h : Pokes s t a m) (h' : Pokes t u (a + m) n) :
    Pokes s u a (m + n) := by
  refine ⟨fun p outside => ?_, fun c => ?_⟩
  · refine (h'.bytes p fun k hk => ?_).trans (h.bytes p fun k hk => outside k (by omega))
    rw [Nat.add_assoc]
    exact outside (m + k) (by omega)
  · rw [h'.stored, h.stored, or_assoc]
    exact or_congr_right (by omega)

theorem Pokes.setPc {s t : State} {a n : Nat} (h : Pokes s t a n) (v : Word) : Pokes s (t.setPc v) a n :=
  ⟨fun p outside => (t.setPc_byteAt v p).trans (h.bytes p outside), h.stored⟩

theorem Pokes.setSp {s t : State} {a n : Nat} (h : Pokes s t a n) (v : Word) : Pokes s (t.setSp v) a n :=
  ⟨fun p outside => (t.setSp_byteAt v p).trans (h.bytes p outside), h.stored⟩

theorem pokes_pokeByte (s : State) (a : Word) (b : Byte) : Pokes s (s.pokeByte a b) a.toNat 1 := by
  refine ⟨fun p outside => ?_, fun c => ?_⟩
  · rw [State.pokeByte_byteAt]
    exact if_neg (outside 0 Nat.one_pos)
  · rw [State.pokeByte_stored, mem_insertAddress, or_comm]
    exact or_congr_right (by omega)

theorem pokes_pokeHalf (s : State) {a : Word} (inside : InSram a 2) (v : Half) :
    Pokes s (s.pokeHalf a v) a.toNat 2 := by
  have second := pokes_pokeByte (s.pokeByte a (firstByte s.cfg.wordByteOrder v)) (a + 1#32)
    (secondByte s.cfg.wordByteOrder v)
  rw [show (a + 1#32).toNat = a.toNat + 1 from inside.toNat_add (k := 1) (by decide)] at second
  exact (pokes_pokeByte s a _).append second

theorem pokes_pokeWord (s : State) {a : Word} (inside : InSram a 4) (v : Word) :
    Pokes s (s.pokeWord a v) a.toNat 4 := by
  have bound : a.toNat + 4 ≤ 0x80000 := inside
  have next : (a + 2#32).toNat = a.toNat + 2 := inside.toNat_add (k := 2) (by decide)
  have low : InSram a 2 := show a.toNat + 2 ≤ 0x80000 by omega
  have high : InSram (a + 2#32) 2 := show (a + 2#32).toNat + 2 ≤ 0x80000 by omega
  have second := pokes_pokeHalf (s.pokeHalf a (v.extractLsb' 16 16)) high (v.extractLsb' 0 16)
  rw [next] at second
  exact (pokes_pokeHalf s low _).append second

theorem placeOf_of_sram (s : State) {a : Word} (inside : region a = .sram) : s.placeOf a = some (.sram a.toNat) := by
  rw [State.placeOf, inside]

theorem InSram.mem_placesOf {s : State} {a : Word} {n k : Nat} (inside : InSram a n) (hk : k < n) :
    .sram (a.toNat + k) ∈ s.placesOf a n := by
  have byte : a + BitVec.ofNat 32 k ∈ span a n := mem_span.2 ⟨k, hk, rfl⟩
  refine List.mem_filterMap.2 ⟨_, byte, ?_⟩
  rw [placeOf_of_sram s (inside.region _ byte), inside.toNat_add hk]

theorem Pokes.storesOnlyTo {s t : State} {a : Word} {n : Nat} (h : Pokes s t a.toNat n) (inside : InSram a n) :
    StoresOnlyTo s t a n := by
  have bound : a.toNat + n ≤ 0x80000 := inside
  refine ⟨fun p outside => h.bytes p fun k hk at_ => outside (at_ ▸ inside.mem_placesOf hk), fun c => ?_⟩
  rw [h.stored]
  refine or_congr_right ?_
  show _ ↔ _ ∧ _ ∧ c < 0x80000
  omega

end Sys2Proof.Machine

namespace Sys2Proof.Machine

/-! ### ST.W and ST.B (43_memory_access.md R141, R146) -/

/-! #### The words and the meanings -/

theorem stW_encodedAs (rA rB : Reg) : EncodedAs (.stW rA rB) (fieldAt rB 12 ||| fieldAt rA 8 ||| 0x0003#16) :=
  encodedAs_of_encode fun _ => congrArg (fun w => [w]) (packWide_eq_or rB rA 0 3)

theorem stB_encodedAs (rA rB : Reg) : EncodedAs (.stB rA rB) (fieldAt rB 12 ||| fieldAt rA 8 ||| 0x0053#16) :=
  encodedAs_of_encode fun _ => congrArg (fun w => [w]) (packWide_eq_or rB rA 5 3)

theorem stW_eq_next {s t : State} {rA rB : Reg} : exec (.stW rA rB) s = .next t ↔ storeFault (s.reg rA) 2 = none ∧
    t = (s.pokeHalf (s.reg rA) ((s.reg rB).extractLsb' 0 16)).setPc (s.nextPc 1) := by
  show andThen _ _ = _ ↔ _
  simp only [andThen_eq_next, State.store16_eq_ok]
  constructor
  · rintro ⟨_, ⟨admitted, rfl⟩, run⟩
    exact ⟨admitted, (Host.Outcome.next.inj run).symm⟩
  · rintro ⟨admitted, rfl⟩
    exact ⟨_, ⟨admitted, rfl⟩, rfl⟩

theorem stB_of_ok {s t : State} {rA rB : Reg} (stored : s.store8 (s.reg rA) ((s.reg rB).extractLsb' 0 8) = .ok t) :
    exec (.stB rA rB) s = .next (t.setPc (s.nextPc 1)) := by
  show andThen _ _ = _
  rw [stored, andThen_ok, State.advance_eq, (store8_frame stored).nextPc]

theorem stB_of_error {s : State} {rA rB : Reg} {f : Fault}
    (stops : s.store8 (s.reg rA) ((s.reg rB).extractLsb' 0 8) = .error f) : StopsWith (.stB rA rB) s f := by
  show andThen _ _ = _
  rw [stops, andThen_error]

/-! #### To SRAM -/

/-- Settles O19: a word is two bytes poked, and it is read back as their join. -/
theorem storeWordResult : Obligations.StoreWordResult := by
  intro s rA rB inside even
  have admitted := storeFault_of_inSram inside even (by decide)
  exact ⟨stW_encodedAs rA rB, _, stW_eq_next.2 ⟨admitted, rfl⟩, rfl, s.sramHalf_pokeHalf _ _,
    ((pokes_pokeHalf s inside _).setPc _).storesOnlyTo inside, (keepsAllBut_pokeHalf s _ _).setPc _⟩

theorem store8_of_sram (s : State) {a : Word} (inside : region a = .sram) (b : Byte) :
    s.store8 a b = .ok (s.pokeByte a b) := State.store8_eq_ok.2 (.inl ⟨inside, rfl⟩)

/-- Settles O20: one byte is poked. -/
theorem storeByteToSram : Obligations.StoreByteToSram := by
  intro s rA rB inside
  have stored := store8_of_sram s (inside.region _ (mem_span_self Nat.one_pos)) ((s.reg rB).extractLsb' 0 8)
  refine ⟨stB_encodedAs rA rB, _, stB_of_ok stored, rfl, ?byte, ((pokes_pokeByte s _ _).setPc _).storesOnlyTo inside,
    (keepsAllBut_pokeByte s _ _).setPc _⟩
  case byte => rw [State.setPc_byteAt, State.pokeByte_byteAt, if_pos rfl]

/-! #### To the frame buffer that is not displayed -/

theorem store8_of_vram (s : State) {a : Word} {o : Nat} (inside : o < 0xC000) (address : a.toNat = 0x80000000 + o)
    (b : Byte) : s.store8 a b = .ok (s.storePixel o b) := by
  refine State.store8_eq_ok.2 (.inr (.inl ⟨region_eq_vram.2 (by omega), ?_⟩))
  rw [address, Nat.add_sub_cancel_left]

theorem FrameBuffer.read_write_same {f : FrameBuffer} (wf : f.wf) (defined : f ≠ .drawn) (o : Nat) (b : Byte) :
    (f.write o b).read o = some b := by
  rw [FrameBuffer.read_write f wf]
  cases f with
  | cpu => exact if_pos rfl
  | drawn => exact absurd rfl defined

theorem FrameBuffer.read_write_of_ne {f : FrameBuffer} (wf : f.wf) {o c : Nat} (other : c ≠ o) (b : Byte) :
    (f.write o b).read c = f.read c := by
  rw [FrameBuffer.read_write f wf]
  cases f with
  | cpu => exact if_neg other
  | drawn => rfl

theorem storePixel_byteAt_same (s : State) (o : Nat) (b : Byte) :
    (s.storePixel o b).byteAt (.frame s.writeTarget o) = ((s.fb s.writeTarget).write o b).read o :=
  s.setFb_byteAt_same _ _ o

theorem storePixel_byteAt_of_ne {s : State} (canonical : s.Canonical) {o : Nat} (b : Byte) {p : Place}
    (other : p ≠ .frame s.writeTarget o) : (s.storePixel o b).byteAt p = s.byteAt p := by
  by_cases outside : ∀ c, p ≠ .frame s.writeTarget c
  · exact s.setFb_byteAt_of_ne _ _ outside
  · push Not at outside
    obtain ⟨c, rfl⟩ := outside
    have offset : c ≠ o := fun same => other (same ▸ rfl)
    exact (s.setFb_byteAt_same _ _ c).trans (FrameBuffer.read_write_of_ne (canonical.fb _) offset b)

/-- Settles O21: the write target's buffer is replaced by itself with the one byte written. -/
theorem storeByteToVram : Obligations.StoreByteToVram := by
  intro s rA rB o canonical inside address
  rw [← State.writeTarget_eq_sub]
  have stored := store8_of_vram s inside address ((s.reg rB).extractLsb' 0 8)
  refine ⟨_, stB_of_ok stored, rfl, ?_⟩
  simp only [State.setPc_byteAt, storePixel_byteAt_same]
  refine ⟨fun defined => FrameBuffer.read_write_same (canonical.fb _) defined _ _, fun drawn => ?drawn, fun p other =>
    storePixel_byteAt_of_ne canonical _ other, (canonical.store8 stored).of_same rfl rfl rfl rfl,
    (keepsAllBut_setFb s _ _).setPc _⟩
  case drawn =>
    rw [drawn]
    rfl

/-! #### To the device bytes -/

theorem store8_of_device (s : State) {a : Word} {o : Nat} (inside : o < 0x1000) (address : a.toNat = 0x8000C000 + o)
    (b : Byte) : s.store8 a b = s.storeDevice o b := by
  rw [State.store8, region_eq_dev.2 (by omega)]
  show s.storeDevice _ b = _
  rw [address, Nat.add_sub_cancel_left]

theorem State.byteAt_device_eq_none (s : State) {o : Nat} (unused : o ∉ [0, 1, 4, 5, 6, 7]) :
    s.byteAt (.device o) = none := by
  simp only [List.mem_cons, List.not_mem_nil, or_false, not_or] at unused
  show s.deviceByte o = none
  unfold State.deviceByte
  split <;> simp_all

theorem State.setBorder_byteAt (s : State) (b : Byte) (p : Place) :
    (s.setBorder b).byteAt p = if p = .device 0 then some b else s.byteAt p := by
  cases p with
  | sram | frame => rfl
  | device o =>
    show (s.setBorder b).deviceByte o = if _ then some b else s.deviceByte o
    unfold State.deviceByte
    split <;> simp_all

theorem State.setVbsEnable_byteAt (s : State) (b : Byte) (p : Place) :
    (s.setVbsEnable b).byteAt p = if p = .device 1 then some b else s.byteAt p := by
  cases p with
  | sram | frame => rfl
  | device o =>
    show (s.setVbsEnable b).deviceByte o = if _ then some b else s.deviceByte o
    unfold State.deviceByte
    split <;> simp_all

theorem State.setService_byteAt (s : State) (k : Fin 4) (b : Byte) (p : Place) :
    (s.setService k b).byteAt p = if p = .device (4 + k) then some b else s.byteAt p := by
  cases p with
  | sram | frame => rfl
  | device o =>
    show (s.setService k b).deviceByte o = if _ then some b else s.deviceByte o
    unfold State.deviceByte
    fin_cases k
    all_goals split <;> simp_all

/-- What a device store that is admitted does to every place: the UNUSED bytes take it without effect
(92_eei_decisions.md D39). -/
theorem storeDevice_ok (s : State) {o : Nat} {b : Byte} (admitted : ¬ (o = 1 ∧ b ≠ 0#8)) :
    ∃ t, s.storeDevice o b = .ok t ∧
      ∀ p, t.byteAt p = if p = .device o ∧ o ∈ [0, 1, 4, 5, 6, 7] then some b else s.byteAt p := by
  unfold State.storeDevice
  split
  case h_1 => exact ⟨_, rfl, fun p => by simp [State.setBorder_byteAt]⟩
  case h_2 =>
    have off : b = 0#8 := by simpa using admitted
    exact ⟨_, if_pos off, fun p => by simp [State.setVbsEnable_byteAt]⟩
  case h_3 | h_4 | h_5 | h_6 => exact ⟨_, rfl, fun p => by simp [State.setService_byteAt]⟩
  case h_7 =>
    refine ⟨s, rfl, fun p => (if_neg ?_).symm⟩
    rintro ⟨-, used⟩
    simp_all

theorem storeDevice_of_service (s : State) {b : Byte} (on : b ≠ 0#8) :
    s.storeDevice 1 b = .error .vblankService := if_neg on

/-- Settles O22: the byte store is that of one device byte, if the offset is a used one. -/
theorem storeByteToDevice : Obligations.StoreByteToDevice := by
  intro s rA rB o inside address
  have device := store8_of_device s inside address ((s.reg rB).extractLsb' 0 8)
  refine ⟨fun service on => ?stops, fun admitted => ?stored⟩
  case stops =>
    subst service
    exact stB_of_error (device.trans (storeDevice_of_service s on))
  case stored =>
    obtain ⟨t, stored, bytes⟩ := storeDevice_ok s admitted
    refine ⟨_, stB_of_ok (device.trans stored), rfl, ?_⟩
    simp only [State.setPc_byteAt, bytes, true_and]
    refine ⟨?_, fun p other => if_neg fun same => other same.1, (storeDevice_keepsAllBut stored).setPc _⟩
    split_ifs with used
    · rfl
    · exact s.byteAt_device_eq_none used

end Sys2Proof.Machine

namespace Sys2Proof.Machine

/-! ### LD.B, LD.W and LD.D through a register (43_memory_access.md R142, R147, R149) -/

theorem exec_ldBMem {s : State} {rA rB : Reg} {b : Byte} (loaded : s.load8 (s.reg rB) = .ok b) :
    exec (.ldBMem rA rB) s = .next ((s.setReg rA (low8Result (s.reg rA) b)).setPc (s.nextPc 1)) := by
  show andThen _ _ = _
  rw [loaded, andThen_ok, State.writeLow8_eq]
  rfl

theorem exec_ldWMem {s : State} {rA rB : Reg} {v : Half} (loaded : s.load16 (s.reg rB) = .ok v) :
    exec (.ldWMem rA rB) s =
      .next ((s.setReg rA (low16Result s.cfg.wordWriteUpper (s.reg rA) v)).setPc (s.nextPc 1)) := by
  show andThen _ _ = _
  rw [loaded, andThen_ok, State.writeLow16_eq_setReg]
  rfl

theorem exec_ldDMem {s : State} {rA rB : Reg} {v : Word} (loaded : s.load32 (s.reg rB) = .ok v) :
    exec (.ldDMem rA rB) s = .next ((s.setReg rA v).setPc (s.nextPc 1)) := by
  show andThen _ _ = _
  rw [loaded]
  rfl

theorem load8_of_byte {s : State} {a : Word} {b : Byte} (inside : InSram a 1)
    (held : s.byteAt (.sram a.toNat) = some b) : s.load8 a = .ok b :=
  State.load8_eq_ok.2 ⟨loadFault_of_inSram inside (.inl rfl), held⟩

/-- The word at an address of SRAM, from its two bytes. -/
theorem sramHalf_of_bytes {s : State} {a : Word} {b0 b1 : Byte} (inside : InSram a 2)
    (h0 : s.byteAt (.sram a.toNat) = some b0) (h1 : s.byteAt (.sram (a.toNat + 1)) = some b1) :
    s.sramHalf a = some (joinHalf s.cfg.wordByteOrder b0 b1) :=
  State.sramHalf_eq_some.2 ⟨b0, b1, h0, (inside.sramByte (k := 1) (by decide)).trans h1, rfl⟩

/-- Settles O24: the bytes are joined to words, and two words to a dword, in the configuration's order. -/
theorem memoryLoadResults : Obligations.MemoryLoadResults := by
  refine fun s rA rB => ⟨fun b inside held => ?byte, fun b0 b1 inside even h0 h1 => ?word,
    fun b0 b1 b2 b3 inside even h0 h1 h2 h3 => ?dword⟩
  case byte => exact resultIn_of_exec (exec_ldBMem (load8_of_byte inside held))
  case word =>
    refine resultIn_of_exec (exec_ldWMem (State.load16_eq_ok.2 ⟨?_, sramHalf_of_bytes inside h0 h1⟩))
    exact loadFault_of_inSram inside (.inr even)
  case dword =>
    have bound : (s.reg rB).toNat + 4 ≤ 0x80000 := inside
    have next : (s.reg rB + 2#32).toNat = (s.reg rB).toNat + 2 := inside.toNat_add (k := 2) (by decide)
    have first : InSram (s.reg rB) 2 := show (s.reg rB).toNat + 2 ≤ 0x80000 by omega
    have second : InSram (s.reg rB + 2#32) 2 := show (s.reg rB + 2#32).toNat + 2 ≤ 0x80000 by omega
    have low := sramHalf_of_bytes (s := s) (b0 := b2) (b1 := b3) second (by rwa [next]) (by rwa [next])
    refine resultIn_of_exec (exec_ldDMem (State.load32_eq_ok.2 ⟨loadFault_of_inSram inside (.inr even), ?_⟩))
    exact State.sramWord_eq_some.2 ⟨_, _, sramHalf_of_bytes first h0 h1, low, rfl⟩

/-- A 16-bit write puts its value in the low half, whatever `WORD_WRITE_UPPER` is. -/
theorem low16Result_low (u : UpperHalf) (old : Word) (v : Half) : (low16Result u old v).extractLsb' 0 16 = v := by
  cases u with
  | zero =>
    rw [low16Result, BitVec.ofNat_toNat, ← BitVec.setWidth_eq_extractLsb' (by decide)]
    exact BitVec.setWidth_setWidth_of_le v (by decide)
  | preserve =>
    rw [← append_eq_low16Result]
    exact extract_append_low _ v

theorem low8Result_low (old : Word) (b : Byte) : (low8Result old b).extractLsb' 0 8 = b := by
  rw [← append_eq_low8Result]
  exact extract_append_low _ b

theorem ldBMem_low {s : State} {rA rB : Reg} {b : Byte} (loaded : s.load8 (s.reg rB) = .ok b) :
    Completes (.ldBMem rA rB) s fun u => (u.reg rA).extractLsb' 0 8 = b := by
  refine ⟨_, exec_ldBMem loaded, ?_⟩
  show ((s.setReg rA _).reg rA).extractLsb' 0 8 = b
  rw [State.reg_setReg_same, low8Result_low]

/-- The byte of a stored word at its own address, in the configuration's order (20_memory.md R36 b). -/
theorem sramByte_pokeHalf_self (s : State) (a : Word) (v : Half) :
    (s.pokeHalf a v).sramByte a = some (firstByte s.cfg.wordByteOrder v) := by
  have apart : a ≠ a + 1#32 := by bv_omega
  rw [State.sramByte_pokeHalf, if_neg apart, if_pos rfl]

theorem firstByte_low (order : ByteOrder) (v : Word) : firstByte order (v.extractLsb' 0 16) =
    match order with
    | .big => v.extractLsb' 8 8
    | .little => v.extractLsb' 0 8 := by
  cases order
  · exact BitVec.extractLsb'_extractLsb'_of_le (by decide)
  · exact BitVec.extractLsb'_extractLsb'_of_le (by decide)

/-- Settles O27: where ST.W was admitted both loads are, and each reads what the store poked. -/
theorem loadsSeeStoredWord : Obligations.LoadsSeeStoredWord := by
  intro s t rA rB rC run
  obtain ⟨admitted, rfl⟩ := stW_eq_next.1 run
  obtain ⟨region, even⟩ := (storeFault_eq_none (by decide)).1 admitted
  refine ⟨?word, ?byte⟩
  case word =>
    have loaded := State.load16_eq_ok.2 ⟨loadFault_of_storeFault (by decide) admitted,
      s.sramHalf_pokeHalf (s.reg rA) ((s.reg rB).extractLsb' 0 16)⟩
    refine ⟨_, exec_ldWMem loaded, ?_, ?_⟩
    · rw [State.setPc_reg, State.reg_setReg_same, low16Result_low]
    · exact ((((keepsAllBut_pokeHalf s _ _).setPc _).append (keepsAllBut_setReg _ rC _)).mono (by simp)).setPc _
  case byte =>
    have first : ∀ b ∈ span (s.reg rA) 1, Machine.region b = .sram := by
      intro b hb
      obtain ⟨k, hk, rfl⟩ := mem_span.1 hb
      exact region _ (mem_span.2 ⟨k, by omega, rfl⟩)
    have loaded := State.load8_eq_ok.2 ⟨loadFault_eq_none.2 ⟨first, .inl rfl⟩,
      sramByte_pokeHalf_self s (s.reg rA) ((s.reg rB).extractLsb' 0 16)⟩
    obtain ⟨u, run, low⟩ := ldBMem_low (s := (s.pokeHalf _ _).setPc (s.nextPc 1)) (rA := rC) (rB := rA) loaded
    exact ⟨u, run, low.trans (firstByte_low _ _)⟩

end Sys2Proof.Machine

namespace Sys2Proof.Machine

/-! ### The stops of data accesses (60_exceptions.md R205) -/

/-! #### What an access that is not admitted names -/

theorem storeFault_outsideMap {a : Word} {n : Nat} (h : ∃ b ∈ span a n, region b = .absent) :
    storeFault a n = some .outsideMap := by
  have absent : ((span a n).any fun b => region b == .absent) = true := by simpa using h
  rw [storeFault, if_pos absent]

theorem loadFault_outsideMap {a : Word} {n : Nat} (h : ∃ b ∈ span a n, region b = .absent) :
    loadFault a n = some .outsideMap := by
  have absent : ((span a n).any fun b => region b == .absent) = true := by simpa using h
  rw [loadFault, if_pos absent]

theorem storeFault_wide {a : Word} {n : Nat} (hn : n ≠ 1) (mapped : ∀ b ∈ span a n, region b ≠ .absent)
    (h : ∃ b ∈ span a n, region b ≠ .sram) : storeFault a n = some .wideVideoStore := by
  have absent : ¬ ((span a n).any fun b => region b == .absent) = true := by simpa using mapped
  have video : (n != 1 && (span a n).any fun b => region b != .sram) = true := by simpa [hn] using h
  rw [storeFault, if_neg absent, if_pos video]

theorem loadFault_video {a : Word} {n : Nat} (mapped : ∀ b ∈ span a n, region b ≠ .absent)
    (h : ∃ b ∈ span a n, region b ≠ .sram) : loadFault a n = some .videoLoad := by
  have absent : ¬ ((span a n).any fun b => region b == .absent) = true := by simpa using mapped
  have video : ((span a n).any fun b => region b != .sram) = true := by simpa using h
  rw [loadFault, if_neg absent, if_pos video]

theorem storeFault_misaligned {a : Word} {n : Nat} (sram : ∀ b ∈ span a n, region b = .sram) (hn : n ≠ 1)
    (odd : isOdd a = true) : storeFault a n = some .misaligned := by
  have absent : ¬ ((span a n).any fun b => region b == .absent) = true := by simp +contextual [sram]
  have video : ¬ (n != 1 && (span a n).any fun b => region b != .sram) = true := by simp +contextual [sram]
  rw [storeFault, if_neg absent, if_neg video, if_pos (by simp [hn, odd])]

theorem loadFault_misaligned {a : Word} {n : Nat} (sram : ∀ b ∈ span a n, region b = .sram) (hn : n ≠ 1)
    (odd : isOdd a = true) : loadFault a n = some .misaligned := by
  have absent : ¬ ((span a n).any fun b => region b == .absent) = true := by simp +contextual [sram]
  have video : ¬ ((span a n).any fun b => region b != .sram) = true := by simp +contextual [sram]
  rw [loadFault, if_neg absent, if_neg video, if_pos (by simp [hn, odd])]

/-- The rule of an instruction that stops as its store does. -/
theorem accessStops_of_store {i : Instr} {s : State} {a : Word} {n : Nat} (hn : n ≠ 1)
    (stops : ∀ f, storeFault a n = some f → StopsWith i s f) : AccessStops i s a n .wideVideoStore :=
  ⟨fun absent => stops _ (storeFault_outsideMap absent), fun mapped video => stops _ (storeFault_wide hn mapped video),
    fun sram hn odd => stops _ (storeFault_misaligned sram hn odd)⟩

/-- The rule of an instruction that stops as its load does. -/
theorem loadStops_of_load {i : Instr} {s : State} {a : Word} {n : Nat}
    (stops : ∀ f, loadFault a n = some f → StopsWith i s f)
    (noValue : loadFault a n = none → (∃ b ∈ span a n, s.byteAt (.sram b.toNat) = none) → StopsWith i s .noValue) :
    LoadStops i s a n :=
  ⟨⟨fun absent => stops _ (loadFault_outsideMap absent), fun mapped video => stops _ (loadFault_video mapped video),
    fun sram hn odd => stops _ (loadFault_misaligned sram hn odd)⟩,
    fun sram aligned => noValue (loadFault_eq_none.2 ⟨sram, aligned⟩)⟩

/-! #### A byte without a value (U19) -/

theorem sramHalf_eq_none {s : State} {a : Word} (h : ∃ b ∈ span a 2, s.byteAt (.sram b.toNat) = none) :
    s.sramHalf a = none := by
  obtain ⟨b, hb, none⟩ := h
  refine Option.eq_none_iff_forall_ne_some.2 fun v held => ?_
  obtain ⟨b0, b1, h0, h1, -⟩ := State.sramHalf_eq_some.1 held
  rcases mem_span_two.1 hb with rfl | rfl
  · exact Option.some_ne_none b0 (h0.symm.trans none)
  · exact Option.some_ne_none b1 (h1.symm.trans none)

theorem sramWord_eq_none {s : State} {a : Word} (h : ∃ b ∈ span a 4, s.byteAt (.sram b.toNat) = none) :
    s.sramWord a = none := by
  obtain ⟨b, hb, none⟩ := h
  refine Option.eq_none_iff_forall_ne_some.2 fun v held => ?_
  obtain ⟨hi, lo, h0, h1, -⟩ := State.sramWord_eq_some.1 held
  rcases mem_span_four.1 hb with high | low
  · exact Option.some_ne_none hi (h0.symm.trans (sramHalf_eq_none ⟨b, high, none⟩))
  · exact Option.some_ne_none lo (h1.symm.trans (sramHalf_eq_none ⟨b, low, none⟩))

theorem checkedRead_of_fault {α : Type} {f : Option Fault} {g : Fault} {o : Option α} (h : f = some g) :
    checkedRead f o = .error g := by
  rw [h, checkedRead]

theorem checkedRead_of_none {α : Type} {f : Option Fault} {o : Option α} (admitted : f = none) (h : o = none) :
    checkedRead f o = .error .noValue := by
  rw [admitted, h, checkedRead]

/-! #### The accesses -/

theorem stopsWith_of_error {α : Type} {i : Instr} {s : State} {e : Except Fault α} {k : α → Result} {f : Fault}
    (run : exec i s = andThen e k) (stops : e = .error f) : StopsWith i s f := by
  rw [StopsWith, run, stops, andThen_error]

theorem store16_of_fault {s : State} {a : Word} {v : Half} {f : Fault} (h : storeFault a 2 = some f) :
    s.store16 a v = .error f := by
  rw [State.store16, h]

theorem store32_of_fault {s : State} {a v : Word} {f : Fault} (h : storeFault a 4 = some f) :
    s.store32 a v = .error f := by
  rw [State.store32, h]

theorem storeSlot_of_fault {s : State} {a v : Word} {f : Fault}
    (h : storeFault a s.cfg.stackSlotBytes.bytes = some f) : s.storeSlot a v = .error f := by
  unfold State.storeSlot
  cases slot : s.cfg.stackSlotBytes <;> rw [slot] at h
  · exact store16_of_fault h
  · exact store32_of_fault h

theorem loadSlot_of_fault {s : State} {rA : Reg} {a : Word} {f : Fault}
    (h : loadFault a s.cfg.stackSlotBytes.bytes = some f) : s.loadSlot rA a = .error f := by
  unfold State.loadSlot
  cases slot : s.cfg.stackSlotBytes <;> rw [slot] at h
  · exact congrArg (Except.map _) (checkedRead_of_fault h)
  · exact congrArg (Except.map _) (checkedRead_of_fault h)

theorem loadSlot_of_noValue {s : State} {rA : Reg} {a : Word} (admitted : loadFault a s.cfg.stackSlotBytes.bytes = none)
    (h : ∃ b ∈ span a s.cfg.stackSlotBytes.bytes, s.byteAt (.sram b.toNat) = none) :
    s.loadSlot rA a = .error .noValue := by
  unfold State.loadSlot
  cases slot : s.cfg.stackSlotBytes <;> rw [slot] at admitted h
  · exact congrArg (Except.map _) (checkedRead_of_none admitted (sramHalf_eq_none h))
  · exact congrArg (Except.map _) (checkedRead_of_none admitted (sramWord_eq_none h))

/-- Settles O23: each instruction stops as the one access it makes. -/
theorem memoryAccessStops : Obligations.MemoryAccessStops := by
  refine fun s rA rB => ⟨?stW, fun absent => ?stB, ?ldW, ?ldB, ?ldD, ?push, ?pop⟩
  case stW => exact accessStops_of_store (by decide) fun f h => stopsWith_of_error rfl (store16_of_fault h)
  case stB => exact stopsWith_of_error rfl (by rw [State.store8, absent])
  case ldW =>
    exact loadStops_of_load (fun f h => stopsWith_of_error rfl (checkedRead_of_fault h))
      fun admitted h => stopsWith_of_error rfl (checkedRead_of_none admitted (sramHalf_eq_none h))
  case ldB =>
    refine loadStops_of_load (fun f h => stopsWith_of_error rfl (checkedRead_of_fault h)) fun admitted h => ?_
    obtain ⟨b, hb, none⟩ := h
    obtain rfl : b = s.reg rB := by simpa [span] using hb
    exact stopsWith_of_error rfl (checkedRead_of_none admitted none)
  case ldD =>
    exact loadStops_of_load (fun f h => stopsWith_of_error rfl (checkedRead_of_fault h))
      fun admitted h => stopsWith_of_error rfl (checkedRead_of_none admitted (sramWord_eq_none h))
  case push =>
    have wide : s.cfg.stackSlotBytes.bytes ≠ 1 := by cases s.cfg.stackSlotBytes <;> decide
    exact accessStops_of_store wide fun f h => stopsWith_of_error rfl (storeSlot_of_fault h)
  case pop =>
    exact loadStops_of_load (fun f h => stopsWith_of_error rfl (loadSlot_of_fault h))
      fun admitted h => stopsWith_of_error rfl (loadSlot_of_noValue admitted h)

end Sys2Proof.Machine

namespace Sys2Proof.Machine

/-! ### PUSH and POP (45_stack.md R165 to R168) -/

/-! #### The slot -/

/-- A store of a slot is admitted as one of its bytes is, and reads back as what a slot holds of the value. -/
theorem storeSlot_of_admitted {s : State} {a v : Word} (admitted : storeFault a s.cfg.stackSlotBytes.bytes = none) :
    ∃ t, s.storeSlot a v = .ok t ∧ KeepsAllBut [.bytes, .stored] s t ∧
      (InSram a s.cfg.stackSlotBytes.bytes → Pokes s t a.toNat s.cfg.stackSlotBytes.bytes) ∧
      (s.cfg.stackSlotBytes = .four → t.sramWord a = some v) ∧
      (s.cfg.stackSlotBytes = .two → t.sramHalf a = some (v.extractLsb' 0 16)) := by
  unfold State.storeSlot
  cases slot : s.cfg.stackSlotBytes with
  | four =>
    rw [slot] at admitted
    exact ⟨_, State.store32_eq_ok.2 ⟨admitted, rfl⟩, keepsAllBut_pokeWord s a v,
      fun inside => pokes_pokeWord s inside v, fun _ => sramWord_pokeWord s a v, nofun⟩
  | two =>
    rw [slot] at admitted
    exact ⟨_, State.store16_eq_ok.2 ⟨admitted, rfl⟩, keepsAllBut_pokeHalf s a _,
      fun inside => pokes_pokeHalf s inside _, nofun, fun _ => s.sramHalf_pokeHalf a _⟩

theorem admitted_of_storeSlot {s t : State} {a v : Word} (stored : s.storeSlot a v = .ok t) :
    storeFault a s.cfg.stackSlotBytes.bytes = none := by
  unfold State.storeSlot at stored
  cases slot : s.cfg.stackSlotBytes <;> rw [slot] at stored
  · exact (State.store16_eq_ok.1 stored).1
  · exact (State.store32_eq_ok.1 stored).1

theorem loadSlot_four {s : State} {rA : Reg} {a v : Word} (slot : s.cfg.stackSlotBytes = .four)
    (admitted : loadFault a 4 = none) (held : s.sramWord a = some v) : s.loadSlot rA a = .ok (s.setReg rA v) := by
  rw [State.loadSlot, slot, State.load32_eq_ok.2 ⟨admitted, held⟩]
  rfl

theorem loadSlot_two {s : State} {rA : Reg} {a : Word} {v : Half} (slot : s.cfg.stackSlotBytes = .two)
    (admitted : loadFault a 2 = none) (held : s.sramHalf a = some v) :
    s.loadSlot rA a = .ok (s.setReg rA (low16Result s.cfg.wordWriteUpper (s.reg rA) v)) := by
  rw [State.loadSlot, slot, State.load16_eq_ok.2 ⟨admitted, held⟩, ← State.writeLow16_eq_setReg]
  rfl

theorem slotBytes_ne_one (z : StackSlot) : z.bytes ≠ 1 := by cases z <;> decide

/-! #### PUSH -/

theorem push_keepsAllBut {s t : State} {rA : Reg} (run : exec (.push rA) s = .next t) :
    KeepsAllBut [.sp, .bytes, .stored] s t := by
  obtain ⟨u, stored, rfl⟩ := push_eq_next.1 run
  obtain ⟨u', stored', frame, -⟩ := storeSlot_of_admitted (v := s.reg rA) (admitted_of_storeSlot stored)
  obtain rfl : u' = u := Except.ok.inj (stored'.symm.trans stored)
  exact ((frame.append (keepsAllBut_setSp u' _)).setPc _).mono (by simp)

/-- Settles O28: the slot at SP is stored to, then SP falls. -/
theorem pushResults : Obligations.PushResults := by
  intro s rA even inside
  obtain ⟨t, stored, -, pokes, four, two⟩ :=
    storeSlot_of_admitted (v := s.reg rA) (storeFault_of_inSram inside even (slotBytes_ne_one _))
  have run := push_eq_next.2 ⟨t, stored, rfl⟩
  exact ⟨_, run, rfl, rfl, four, two, (((pokes inside).setSp _).setPc _).storesOnlyTo inside, push_keepsAllBut run⟩

/-! #### POP -/

theorem exec_pop {s : State} {rA : Reg} {v : Word} (loaded : s.loadSlot rA (s.sp + s.slotSize) = .ok (s.setReg rA v)) :
    exec (.pop rA) s = .next (((s.setSp (s.sp + s.slotSize)).setReg rA v).setPc (s.nextPc 1)) := by
  show andThen _ _ = _
  rw [loaded]
  rfl

/-- The rule of a POP whose slot holds a value. -/
theorem pop_completes {s : State} {rA : Reg} {v sp : Word} (slotSize : s.sp + s.slotSize = sp)
    (loaded : s.loadSlot rA sp = .ok (s.setReg rA v)) :
    Completes (.pop rA) s fun t => WritesReg s t rA v 1 [.sp] ∧ t.sp = sp := by
  subst slotSize
  exact ⟨_, exec_pop loaded, (keepsAllBut_setSp s _).writesReg (by decide) rA v 1, rfl⟩

/-- Settles O29: SP rises, then the slot there is loaded, a dword or a word. -/
theorem popResults : Obligations.PopResults := by
  refine ⟨fun s rA v slot even inside held => ?four, fun s rA v slot even inside held => ?two⟩
  case four =>
    have admitted := loadFault_of_inSram inside (.inr ((isOdd_add_even (b := 4#32) rfl).trans even))
    exact pop_completes (by rw [State.slotSize, slot]; rfl) (loadSlot_four slot admitted held)
  case two =>
    have admitted := loadFault_of_inSram inside (.inr ((isOdd_add_even (b := 2#32) rfl).trans even))
    exact pop_completes (by rw [State.slotSize, slot]; rfl) (loadSlot_two slot admitted held)

/-! #### POP after PUSH -/

/-- A part that a frame leaves open and that is the same all the same. -/
theorem KeepsAllBut.drop {p : Part} {ps : List Part} {s t : State} (h : KeepsAllBut (p :: ps) s t) (same : p.same s t) :
    KeepsAllBut ps s t := by
  intro q hq
  by_cases here : q = p
  · exact here ▸ same
  · exact h q (by simp [here, hq])

/-- A slot just stored to loads as what it holds of the value, whatever SP and pc have become. -/
theorem loadSlot_of_storeSlot {s t : State} {a v : Word} (stored : s.storeSlot a v = .ok t) (sp pc : Word) (r : Reg) :
    ∃ w, ((t.setSp sp).setPc pc).loadSlot r a = .ok (((t.setSp sp).setPc pc).setReg r w) ∧
      (s.cfg.stackSlotBytes = .four → w = v) ∧ w.extractLsb' 0 16 = v.extractLsb' 0 16 := by
  have admitted := admitted_of_storeSlot stored
  have load := loadFault_of_storeFault (slotBytes_ne_one _) admitted
  have cfg : ((t.setSp sp).setPc pc).cfg = s.cfg := (storeSlot_frame stored).cfg
  obtain ⟨u, stored', -, -, four, two⟩ := storeSlot_of_admitted (v := v) admitted
  obtain rfl : u = t := Except.ok.inj (stored'.symm.trans stored)
  cases slot : s.cfg.stackSlotBytes with
  | four =>
    rw [slot] at load
    exact ⟨v, loadSlot_four (by rw [cfg, slot]) load (four slot), fun _ => rfl, rfl⟩
  | two =>
    rw [slot] at load
    exact ⟨_, loadSlot_two (by rw [cfg, slot]) load (two slot), nofun, low16Result_low _ _ _⟩

/-- Settles O30: POP loads the slot that PUSH has stored, and SP is back where it was. -/
theorem pushThenPopRestores : Obligations.PushThenPopRestores := by
  intro s t rA rB run
  have frame := push_keepsAllBut run
  obtain ⟨u, stored, rfl⟩ := push_eq_next.1 run
  obtain ⟨w, loaded, four, low⟩ := loadSlot_of_storeSlot stored (s.sp - s.slotSize) (s.nextPc 1) rB
  have slotSize : ((u.setSp (s.sp - s.slotSize)).setPc (s.nextPc 1)).slotSize = s.slotSize :=
    congrArg (fun c : NekoConfig => BitVec.ofNat 32 c.stackSlotBytes.bytes) (storeSlot_frame stored).cfg
  obtain ⟨t, run, writes, sp⟩ := pop_completes (sp := s.sp) (by rw [slotSize]; exact BitVec.sub_add_cancel _ _) loaded
  refine ⟨t, run, sp, fun slot => writes.value.trans (four slot), ?low, fun r other => ?others, ?frame⟩
  case low => rw [writes.value, low]
  case others => exact (writes.others r other).trans (frame.reg (by decide) r)
  case frame => exact KeepsAllBut.drop (p := .sp) ((frame.append writes.frame).mono (by simp)) sp

end Sys2Proof.Machine

namespace Sys2Proof.Machine

/-! ### The stops of a fetch (20_memory.md R41, R49; 60_exceptions.md R205) -/

/-! #### One word -/

theorem fetchBarred_eq_true {s : State} {a : Word} :
    s.fetchBarred a = true ↔ s.cfg.storedFetch = .fault ∧ a.toNat ∈ s.stored := by
  unfold State.fetchBarred
  cases s.cfg.storedFetch <;> simp

theorem fetch16_of_outside {s : State} {a : Word} (outside : ∃ b ∈ span a 2, region b ≠ .sram) :
    s.fetch16 a = .error .badFetch := by
  obtain ⟨b, hb, outside⟩ := outside
  refine if_pos (Bool.or_eq_true_iff.2 (.inr (List.any_eq_true.2 ⟨b, hb, ?_⟩)))
  exact bne_iff_ne.2 outside

theorem fetchable_of_even {a : Word} (even : isOdd a = false) (inside : ∀ b ∈ span a 2, region b = .sram) :
    ¬ (isOdd a || (span a 2).any fun b => region b != .sram) = true := by
  rw [even, Bool.false_or, List.any_eq_true]
  rintro ⟨b, hb, outside⟩
  exact bne_iff_ne.1 outside (inside b hb)

theorem fetch16_of_barred {s : State} {a : Word} (even : isOdd a = false)
    (inside : ∀ b ∈ span a 2, region b = .sram) (barred : ∃ b ∈ span a 2, s.fetchBarred b = true) :
    s.fetch16 a = .error .storedCode :=
  (if_neg (fetchable_of_even even inside)).trans (if_pos (List.any_eq_true.2 barred))

theorem fetch16_of_noValue {s : State} {a : Word} (even : isOdd a = false)
    (inside : ∀ b ∈ span a 2, region b = .sram) (admitted : ∀ b ∈ span a 2, s.fetchBarred b = false)
    (noValue : s.sramHalf a = none) : s.fetch16 a = .error .noValue := by
  refine (if_neg (fetchable_of_even even inside)).trans ((if_neg fun barred => ?_).trans (by rw [noValue]))
  obtain ⟨b, hb, barred⟩ := List.any_eq_true.1 barred
  exact Bool.false_ne_true ((admitted b hb).symm.trans barred)

/-! #### The extra words -/

/-- A step stops at the first of the instruction's extra words that cannot be fetched: the words before it are
enough to tell how many there are. -/
theorem fetchInstr_of_extra_error {s : State} {w w1 w2 : Half} {i : Instr} {k : Nat} {f : Fault}
    (first : s.fetch16 s.pc = .ok w) (decoded : decodeWords w w1 w2 = .ok i)
    (extra : 1 ≤ k) (within : k < i.words s.cfg.branchRegLen)
    (before : ∀ j, 1 ≤ j → j < k → ∃ v, s.fetch16 (s.nextPc j) = .ok v)
    (stops : s.fetch16 (s.nextPc k) = .error f) : s.fetchInstr = .error f := by
  have length := decodeWords_words w w1 w2 s.cfg.branchRegLen
  rw [decoded] at length
  obtain ⟨j, alone, words⟩ : ∃ j, decodeWords w 0#16 0#16 = .ok j ∧
      j.words s.cfg.branchRegLen = i.words s.cfg.branchRegLen := by
    cases alone : decodeWords w 0#16 0#16 with
    | error e => rw [alone] at length; cases length
    | ok j => rw [alone] at length; exact ⟨j, rfl, (Except.ok.inj length).symm⟩
  have short := (words_bounds i s.cfg.branchRegLen).2
  have stopped : s.extraWord (i.words s.cfg.branchRegLen) k = .error f := (if_pos within).trans stops
  obtain rfl | rfl : k = 1 ∨ k = 2 := by omega
  · simp only [State.fetchInstr, bind, Except.bind, first, decodeFetched_eq_ok.2 alone, words, stopped]
  · obtain ⟨v, fetched⟩ := before 1 (by decide) (by decide)
    have second : s.extraWord (i.words s.cfg.branchRegLen) 1 = .ok v :=
      extraWord_eq_ok.2 (.inl ⟨by omega, fetched⟩)
    simp only [State.fetchInstr, bind, Except.bind, first, decodeFetched_eq_ok.2 alone, words, second, stopped]

/-- Settles O53: one lemma per stop of a fetch, and the step stops where the fetch of one of its words does. -/
theorem fetchStops : Obligations.FetchStops := by
  intro s a
  refine ⟨?badFetch, ?storedCode, ?noValue, fun f running first => step_of_fetch16_error running first, ?extra⟩
  case badFetch =>
    rintro (odd | outside)
    · exact fetch16_of_odd odd
    · by_contra! fetched
      exact outside (inSram_two_of_region fun b hb => by_contra fun no => fetched (fetch16_of_outside ⟨b, hb, no⟩))
  case storedCode =>
    rintro even inside fault (stored | stored)
    · exact fetch16_of_barred even inside.region ⟨a, mem_span_self (by decide), fetchBarred_eq_true.2 ⟨fault, stored⟩⟩
    · rw [← inside.toNat_add (k := 1) (by decide)] at stored
      exact fetch16_of_barred even inside.region
        ⟨_, mem_span_two.2 (.inr rfl), fetchBarred_eq_true.2 ⟨fault, stored⟩⟩
  case noValue =>
    intro even inside admitted noValue
    have next : (a + 1#32).toNat = a.toNat + 1 := inside.toNat_add (k := 1) (by decide)
    refine fetch16_of_noValue even inside.region (fun b hb => Bool.eq_false_iff.2 fun barred => ?_)
      (sramHalf_eq_none ?_)
    · obtain ⟨fault, stored⟩ := fetchBarred_eq_true.1 barred
      rcases admitted with latest | ⟨low, high⟩
      · rw [latest] at fault
        cases fault
      · rcases mem_span_two.1 hb with rfl | rfl
        · exact low stored
        · exact high (next ▸ stored)
    · rcases noValue with low | high
      · exact ⟨a, mem_span_self (by decide), low⟩
      · exact ⟨_, mem_span_two.2 (.inr rfl), next ▸ high⟩
  case extra =>
    intro w w1 w2 i k f running first decoded extra within before stops
    exact step_eq_fault.2 ⟨running, .inl (fetchInstr_of_extra_error first decoded extra within before stops)⟩

/-- Settles O54: the store has put the word's bytes among the stored ones, and the word there is the one stored. -/
theorem fetchAfterStore : Obligations.FetchAfterStore := by
  intro s t rA rB run
  obtain ⟨admitted, rfl⟩ := stW_eq_next.1 run
  obtain ⟨region, even⟩ := (storeFault_eq_none (by decide)).1 admitted
  refine ⟨fun fault => ?_, fun latest => ?_⟩
  · have stored : (s.reg rA).toNat ∈ (s.pokeHalf (s.reg rA) ((s.reg rB).extractLsb' 0 16)).stored :=
      ((pokes_pokeHalf s (inSram_two_of_region region) _).stored _).2 (.inr (by omega))
    exact fetch16_of_barred even region ⟨_, mem_span_self (by decide), fetchBarred_eq_true.2 ⟨fault, stored⟩⟩
  · refine State.fetch16_eq_ok.2 ⟨even, region, fun b _ => Bool.eq_false_iff.2 fun barred => ?_,
      s.sramHalf_pokeHalf _ _⟩
    obtain ⟨fault, -⟩ := fetchBarred_eq_true.1 barred
    exact StoredFetch.noConfusion (latest.symm.trans fault)

/-! ### Reset (10_state.md R25; 70_reset_and_hazards.md R221 to R224) -/

/-- An address that an image does not name keeps what the memory held there. -/
theorem Memory.read_load_of_unnamed (image : List Host.Cell) {a : Nat} (unnamed : ∀ c ∈ image, c.1 ≠ a)
    (m : Memory) : Memory.read (Memory.load m image) a = Memory.read m a := by
  induction image generalizing m with
  | nil => rfl
  | cons c rest ih =>
    refine (ih (fun d hd => unnamed d (.tail _ hd)) _).trans ?_
    dsimp only
    split_ifs
    · rw [Memory.read_putSram, if_neg (Ne.symm (unnamed c (.head _)))]
    · rfl

/-- No image puts a byte outside SRAM. -/
theorem coldStart_byteAt_outside (cfg : NekoConfig) (image : List Host.Cell) {a : Nat} (outside : sramSize ≤ a) :
    (State.coldStart cfg image).byteAt (.sram a) = none := by
  have wf := Memory.wf_load _ (State.resetWith_canonical_sram cfg) image
  refine Option.not_isSome_iff_eq_none.1 fun held => ?_
  exact Nat.not_lt.2 outside (Memory.lt_of_read _ _ _ wf a held)

/-- Settles O55: the reset table holds by the definition of the reset state; SRAM is the image alone. -/
theorem resetState : Obligations.ResetState := by
  intro cfg s
  refine ⟨rfl, rfl, rfl, rfl, rfl, fun k named => ?displayFB, rfl, rfl, fun k o => ?frame, fun a => rfl,
    fun image a unnamed => ?unnamed, fun earlier later a b inside last => ?last,
    fun image a outside => coldStart_byteAt_outside cfg image outside, fun image => rfl⟩
  case displayFB =>
    show cfg.displayFBReset.getD 0#1 = k
    rw [named, Option.getD_some]
  case frame =>
    show ((State.resetWith cfg).fb k).read o = none
    unfold State.fb
    split_ifs <;> rfl
  case unnamed => exact Memory.read_load_of_unnamed image unnamed _
  case last => exact Memory.read_load_of_last _ earlier later a b inside last

end Sys2Proof.Machine

namespace Sys2Proof.Machine

/-! ### The assembler takes the well-formed only (30_encoding.md R80 to R89) -/

/-! #### Operands -/

/-- An operand in range for a form with `bits` bits for its number: a label has a value of so many bits. How many
a constant may have is part of the shape (`Operand.isHalf`). -/
def FitsForm (look : Label → Option Nat) (bits : Nat) : Operand → Prop
  | .reg n | .mem n => n < 16
  | .const v => v < 2 ^ 32
  | .label l => ∃ v, look l = some v ∧ v < 2 ^ bits
  | .flags _ => True

section
variable (look : Label → Option Nat) (bits n : Nat)

@[simp] theorem fitsForm_reg : FitsForm look bits (.reg n) ↔ n < 16 := .rfl
@[simp] theorem fitsForm_mem : FitsForm look bits (.mem n) ↔ n < 16 := .rfl
@[simp] theorem fitsForm_flags (fs : List FlagName) : FitsForm look bits (.flags fs) := trivial

end

theorem fitsForm_iff {look : Label → Option Nat} {bits : Nat} {o : Operand} :
    FitsForm look bits o ↔ o.wf = true ∧ ∀ l, o = .label l → ∃ v, look l = some v ∧ v < 2 ^ bits := by
  cases o <;> simp [FitsForm, Operand.wf]

theorem assembles_iff {look : Label → Option Nat} {m : Mnemonic} {ops : List Operand} :
    Assembles look m ops ↔ m.accepts ops = true ∧ ∀ o ∈ ops, FitsForm look (valueBits m) o := by
  simp only [Assembles, Statement.wf, Bool.and_eq_true, List.all_eq_true, fitsForm_iff]
  constructor
  · rintro ⟨⟨inRange, shape⟩, labels⟩
    exact ⟨shape, fun o ho => ⟨inRange o ho, fun l label => labels l (label ▸ ho)⟩⟩
  · rintro ⟨shape, fits⟩
    exact ⟨⟨fun o ho => (fits o ho).1, shape⟩, fun l hl => (fits _ hl).2 l rfl⟩

theorem asReg_isOk {n : Nat} : (∃ r, asReg n = .ok r) ↔ n < 16 := by
  unfold asReg
  split_ifs with inRange <;> simp [inRange]

theorem bounded_isOk {α : Type} {v bound : Nat} {a : α} :
    (∃ w, (if v < bound then Except.ok a else .error AsmError.tooWide) = Except.ok w) ↔ v < bound := by
  split_ifs with inRange <;> simp [inRange]

theorem asWord_isOk {look : Label → Option Nat} {o : Operand} :
    (∃ w, asWord look o = .ok w) ↔ o.isValue = true ∧ FitsForm look 32 o := by
  cases o with
  | const v => exact bounded_isOk.trans (and_iff_right rfl).symm
  | label l =>
    cases value : look l with
    | none => simp [asWord, asNumber, FitsForm, value, bind, Except.bind]
    | some v => simp [asWord, asNumber_label value, FitsForm, Operand.isValue, value, bind, Except.bind, bounded_isOk]
  | _ => simp [asWord, asNumber, Operand.isValue, bind, Except.bind]

theorem asHalf_isOk {look : Label → Option Nat} {o : Operand} :
    (∃ w, asHalf look o = .ok w) ↔ o.isHalf = true ∧ FitsForm look 16 o := by
  cases o with
  | const v =>
    refine bounded_isOk.trans ⟨fun narrow => ⟨decide_eq_true narrow, ?_⟩, fun fits => of_decide_eq_true fits.1⟩
    exact narrow.trans (by decide)
  | label l =>
    cases value : look l with
    | none => simp [asHalf, asNumber, FitsForm, value, bind, Except.bind]
    | some v => simp [asHalf, asNumber_label value, FitsForm, Operand.isHalf, value, bind, Except.bind, bounded_isOk]
  | _ => simp [asHalf, asNumber, Operand.isHalf, bind, Except.bind]

theorem bind_isOk {ε α β : Type} {x : Except ε α} {f : α → β} :
    (∃ b, (do return f (← x) : Except ε β) = .ok b) ↔ ∃ a, x = .ok a := by
  cases x <;> simp [bind, Except.bind, pure, Except.pure]

theorem bind_bind_isOk {ε α β γ : Type} {x : Except ε α} {y : Except ε β} {f : α → β → γ} :
    (∃ c, (do return f (← x) (← y) : Except ε γ) = .ok c) ↔ (∃ a, x = .ok a) ∧ ∃ b, y = .ok b := by
  cases x <;> cases y <;> simp [bind, Except.bind, pure, Except.pure]

/-! #### Instructions -/

theorem oneReg_isOk {f : Reg → Instr} {a : Nat} : (∃ i, oneReg f a = .ok i) ↔ a < 16 := bind_isOk.trans asReg_isOk

theorem twoReg_isOk {f : Reg → Reg → Instr} {a b : Nat} : (∃ i, twoReg f a b = .ok i) ↔ a < 16 ∧ b < 16 :=
  bind_bind_isOk.trans (and_congr asReg_isOk asReg_isOk)

/-- The rows of the assembler's table by the shape of their operands, with `bits` bits for a constant: what a
source instruction of that shape comes to, and whether it has an encoding. -/
inductive AssemblyRow (look : Label → Option Nat) (bits : Nat) :
    List Operand → Except AsmError Instr → Bool → Prop
  | bare (i : Instr) : AssemblyRow look bits [] (.ok i) true
  | reg (f : Reg → Instr) (a : Nat) : AssemblyRow look bits [.reg a] (oneReg f a) true
  | regTwice (f : Reg → Reg → Instr) (a : Nat) : AssemblyRow look bits [.reg a] (twoReg f a a) true
  | regReg (f : Reg → Reg → Instr) (a b : Nat) : AssemblyRow look bits [.reg a, .reg b] (twoReg f a b) true
  | memReg (f : Reg → Reg → Instr) (a b : Nat) : AssemblyRow look bits [.mem a, .reg b] (twoReg f a b) true
  | regMem (f : Reg → Reg → Instr) (a b : Nat) : AssemblyRow look bits [.reg a, .mem b] (twoReg f a b) true
  | regFlags (f : Reg → Instr) (a : Nat) (fs : List FlagName) :
      AssemblyRow look bits [.reg a, .flags fs] (oneReg f a) true
  | word (f : Word → Instr) (t : Operand) : bits = 32 →
      AssemblyRow look bits [t] (do return f (← asWord look t)) t.isValue
  | wordReg (f : Word → Reg → Instr) (t : Operand) (b : Nat) : bits = 32 →
      AssemblyRow look bits [t, .reg b] (branchTo look f t b) t.isValue
  | regWord (f : Reg → Word → Instr) (a : Nat) (v : Operand) : bits = 32 →
      AssemblyRow look bits [.reg a, v] (do return f (← asReg a) (← asWord look v)) v.isValue
  | regHalf (f : Reg → Half → Instr) (a : Nat) (v : Operand) : bits = 16 →
      AssemblyRow look bits [.reg a, v] (regHalf look f a v) v.isHalf
  | refused (ops : List Operand) : AssemblyRow look bits ops (.error .illFormed) false

/-- The assembler's table and the table of shapes that have an encoding agree row by row. -/
theorem assemblyRow (look : Label → Option Nat) (m : Mnemonic) (ops : List Operand) :
    AssemblyRow look (valueBits m) ops (assembleInstr look m ops) (m.accepts ops) := by
  fun_cases Mnemonic.accepts m ops
  case case38 | case39 | case40 | case41 => exact .bare _
  case case1 => exact .regTwice _ _
  case case9 | case10 | case26 | case27 | case28 | case42 | case43 | case49 | case50 | case51 => exact .reg _ _
  case case2 | case3 | case4 | case5 | case6 | case7 | case8 | case13 | case14 | case15 | case16 | case21
    | case22 | case23 | case24 | case25 | case31 | case45 | case46 => exact .regReg _ _ _
  case case29 | case30 => exact .memReg _ _ _
  case case32 | case33 | case34 => exact .regMem _ _ _
  case case44 => exact .regFlags _ _ _
  case case52 => exact .regWord _ _ (.label _) rfl
  case case47 | case48 => exact .regHalf _ _ _ rfl
  case case11 t notReg | case12 t notReg =>
    rw [assembleInstr]
    · exact .word _ t rfl
    · exact notReg
  case case17 t _ notReg | case18 t _ notReg | case19 t _ notReg | case20 t _ notReg =>
    rw [assembleInstr]
    · exact .wordReg _ t _ rfl
    · exact notReg
  case case35 v notMem | case36 v notMem =>
    rw [assembleInstr]
    · exact .regHalf _ _ v rfl
    · exact notMem
  case case37 v notMem =>
    rw [assembleInstr]
    · exact .regWord _ _ v rfl
    · exact notMem
  case case53 =>
    rw [assembleInstr]
    · exact .refused ops
    all_goals assumption

/-- In every row, a source instruction is taken exactly if it has an encoding and its operands fit. -/
theorem AssemblyRow.isOk_iff {look : Label → Option Nat} {bits : Nat} {ops : List Operand}
    {r : Except AsmError Instr} {accepted : Bool} (row : AssemblyRow look bits ops r accepted) :
    (∃ i, r = .ok i) ↔ accepted = true ∧ ∀ o ∈ ops, FitsForm look bits o := by
  cases row with
  | bare i => simp
  | reg f a | regFlags f a fs => simp [oneReg_isOk]
  | regTwice f a | regReg f a b | memReg f a b | regMem f a b => simp [twoReg_isOk]
  | word f t width =>
    subst width
    rw [bind_isOk, asWord_isOk, List.forall_mem_singleton]
  | wordReg f t b width =>
    subst width
    rw [branchTo, bind_bind_isOk, asWord_isOk, asReg_isOk, List.forall_mem_cons,
      List.forall_mem_singleton, fitsForm_reg, and_assoc]
  | regWord f a v width =>
    subst width
    rw [bind_bind_isOk, asWord_isOk, asReg_isOk, List.forall_mem_cons,
      List.forall_mem_singleton, fitsForm_reg, and_left_comm]
  | regHalf f a v width =>
    subst width
    rw [Machine.regHalf, bind_bind_isOk, asHalf_isOk, asReg_isOk, List.forall_mem_cons,
      List.forall_mem_singleton, fitsForm_reg, and_left_comm]
  | refused => simp

theorem assembleInstr_isOk {look : Label → Option Nat} {m : Mnemonic} {ops : List Operand} :
    (∃ i, assembleInstr look m ops = .ok i) ↔ Assembles look m ops :=
  (assemblyRow look m ops).isOk_iff.trans assembles_iff.symm

/-! #### Sources -/

/-- A directive always emits its words; an instruction does exactly if it is taken. -/
theorem statementWords_isOk {cfg : NekoConfig} {look : Label → Option Nat} {st : Statement} :
    (∃ words, statementWords cfg look st = .ok words) ↔ ∀ m ops, st = .ins m ops → Assembles look m ops := by
  cases st with
  | ins m ops =>
    refine bind_isOk.trans (assembleInstr_isOk.trans ⟨?_, fun taken => taken m ops rfl⟩)
    rintro taken _ _ ⟨⟩
    exact taken
  | _ => simp [statementWords]

theorem emitStatements_isOk {cfg : NekoConfig} {table : LabelTable} {placed : List (Nat × Statement)} :
    (∃ image, emitStatements cfg table placed = .ok image) ↔
      ∀ a m ops, (a, Statement.ins m ops) ∈ placed → Assembles (fun l => table.lookup l) m ops := by
  induction placed with
  | nil => simp [emitStatements]
  | cons c rest ih =>
    obtain ⟨at_, st⟩ := c
    refine bind_bind_isOk.trans ((and_congr statementWords_isOk ih).trans ?_)
    simp only [List.mem_cons, Prod.mk.injEq]
    constructor
    · rintro ⟨first, others⟩ a m ops (⟨-, here⟩ | later)
      · exact first m ops here.symm
      · exact others a m ops later
    · intro all
      exact ⟨fun m ops here => all at_ m ops (.inl ⟨rfl, here.symm⟩), fun a m ops later => all a m ops (.inr later)⟩

theorem assemble_of_illFormed {cfg : NekoConfig} {source : List Statement} {st : Statement} (mem : st ∈ source)
    (illFormed : st.wf = false) : assemble cfg source = .error .illFormed := by
  have refused : source.all Statement.wf = false := List.all_eq_false.2 ⟨st, mem, by rw [illFormed]; decide⟩
  unfold assemble
  rw [refused]
  rfl

/-- Settles O59: the assembler's table row by row, then along the placed statements. -/
theorem assemblerTakesWellFormedOnly : Obligations.AssemblerTakesWellFormedOnly :=
  ⟨fun _ _ _ => assembleInstr_isOk, fun _ _ _ => emitStatements_isOk,
    fun _ _ _ mem illFormed => assemble_of_illFormed mem illFormed⟩

end Sys2Proof.Machine
